-- ==== Sys2Proof/Word.lean ====
section
/-! DEFINITION. The words of the machine: bytes, half-words and 32-bit words (00_scope.md R6, R8), register
numbers, and the three widths of a memory access (20_memory.md R58). -/

namespace Sys2Proof

/-- A byte, 8 bits (R6). -/
abbrev Byte := BitVec 8

/-- A compact instruction or a half-word of data, 16 bits (R6). -/
abbrev Half := BitVec 16

/-- A register, an address or a wide instruction, 32 bits (R6). -/
abbrev Word := BitVec 32

/-- The number of one of the sixteen registers (R23): a 4-bit register field. -/
abbrev Reg := BitVec 4

/-- A compact 3-bit register field, "registers 0-7 only" (R23). -/
abbrev LowReg := BitVec 3

/-- `r13`, the stack pointer (R23). -/
abbrev spReg : Reg := 13#4

/-- `r14`, the link register (R23). -/
abbrev lrReg : Reg := 14#4

/-- `r15`, the program counter (R23). -/
abbrev pcReg : Reg := 15#4

/-- The engine, and with it the encoding, that fetches and executes (10_state.md R21). -/
inductive Mode where
  | wide
  | compact
deriving DecidableEq, Repr

/-- The three access widths; "no other width exists" (20_memory.md R58). -/
inductive Width where
  | byte
  | half
  | word
deriving DecidableEq, Repr

/-- How many bytes an access of a width covers (20_memory.md R58). -/
abbrev Width.bytes : Width → Nat
  | .byte => 1
  | .half => 2
  | .word => 4

/-- How many bytes one instruction of a mode has (30_encoding.md R91). -/
abbrev Mode.instrWidth : Mode → Width
  | .wide => .word
  | .compact => .half

end Sys2Proof
end

