-- ==== Sys2Proof/Config.lean ====
section
/-! DEFINITION. What the design or the Loader fixes for a run (00_scope.md R6: segment descriptors, stack
constants, the mode-switch direction) and the one free value of the model: what the external Syscall Shim
answers (60_exceptions.md R450, R451). -/

namespace Sys2Proof

/-- The six kinds of segment (20_memory.md R50). -/
inductive SegmentKind where
  | code
  | rodata
  | data
  | bss
  | heap
  | stack
deriving DecidableEq, Repr

/-- A segment owns the addresses `a` with `base <= a < base + size`, compared unbounded (20_memory.md R51).
Both are counts, not machine words: the sum is not reduced modulo 2^32. -/
structure Segment where
  base : Nat
  size : Nat
deriving DecidableEq, Repr

/-- The Loader's four descriptors (20_memory.md R52, 70_reset_and_hazards.md R481). The heap and the stack are
derived (R53, R54). -/
structure SegmentTable where
  code : Segment
  rodata : Segment
  data : Segment
  bss : Segment
deriving DecidableEq, Repr

/-- The constants of the design that the document leaves open (00_scope.md R6): the stack's exclusive upper
bound and size, and whether the wide-to-compact switch is supported (48_mode_switch.md R423). -/
structure Params where
  stackTop : Word
  stackSize : Nat
  bidirSwitch : Bool
deriving DecidableEq, Repr

/-- One access the Syscall Shim makes through the memory model's checked accessors (60_exceptions.md R450, R451). Any
width is admitted, half-words included: the spec leaves open whether the shim uses the half-word accessor (20_memory.md
R68 and R450 say "word/byte accessors", R451 says "the checked accessors"). DESIGN CHOICE, log entry 8. -/
inductive ShimAccess where
  | read (addr : Word) (width : Width)
  | write (addr : Word) (width : Width) (value : Word)
deriving DecidableEq, Repr

/-- Everything one call of the Syscall Shim does to the block (60_exceptions.md R451): the accesses it makes, in
order, the result it leaves in `x[0]`, and whether it ends the run (`ProgramEnd`, the `kill` call). -/
structure ShimReply where
  accesses : List ShimAccess
  result : Word
  ends : Bool
deriving DecidableEq, Repr, Inhabited

/-- `HOST_SHIM` (00_scope.md R6), a FREE VALUE: what the shim answers to the `n`-th trap of a run when the state
lists no reply for it, given all it sees (60_exceptions.md R450): the active register bank, which is the registers and
the status word, the memory model, which is the segment table and the bytes, and `STACK_TOP` and `STACK_SIZE`. It has
no body: nothing can be proved of it beyond the type. DESIGN CHOICE, log entry 8. -/
opaque Config.hostShim (n : Nat) (regs : Vector Word 16) (status : Word) (segs : SegmentTable) (mem : List Host.Cell)
    (stackTop : Word) (stackSize : Nat) : ShimReply

end Sys2Proof
end

