-- ==== Sys2Proof/Syntax.lean ====
section
/-! DEFINITION. The instruction set: one constructor of `Instr` per row of spec/opcode_table.json, its fields the
row's fields (30_encoding.md R94, R101). Wide instructions carry their condition; names that begin with `c` and a
capital letter are compact. -/

namespace Sys2Proof

/-- The fifteen condition codes (40_cond_shifter_alu.md R130); code 1111 is none of them. -/
inductive Cond where
  | eq | ne | cs | cc | mi | pl | vs | vc | hi | ls | ge | lt | gt | le | al
deriving DecidableEq, Repr

/-- The four shift kinds, `tt` = 00, 01, 10, 11 (30_encoding.md R94). -/
inductive ShiftType where
  | lsl | lsr | asr | ror
deriving DecidableEq, Repr

/-- The instructions, in the order of the opcode table. -/
inductive Instr where
  -- wide data-processing, 41_wide_data_processing.md: Rn of MOV and MVN and Rd of the compares are kept as fields (30_encoding.md R97)
  /-- `AND`, format W-DPI (R175). -/
  | andImm (c : Cond) (sf : Bool) (rn rd : Reg) (rot : BitVec 4) (imm : BitVec 8)
  /-- `AND`, format W-DPIS (R175). -/
  | andReg (c : Cond) (sf : Bool) (rn rd : Reg) (amount : BitVec 5) (sh : ShiftType) (rm : Reg)
  /-- `AND`, format W-DPRS (R175). -/
  | andRsr (c : Cond) (sf : Bool) (rn rd rs : Reg) (sh : ShiftType) (rm : Reg)
  /-- `EOR`, format W-DPI (R176). -/
  | eorImm (c : Cond) (sf : Bool) (rn rd : Reg) (rot : BitVec 4) (imm : BitVec 8)
  /-- `EOR`, format W-DPIS (R176). -/
  | eorReg (c : Cond) (sf : Bool) (rn rd : Reg) (amount : BitVec 5) (sh : ShiftType) (rm : Reg)
  /-- `EOR`, format W-DPRS (R176). -/
  | eorRsr (c : Cond) (sf : Bool) (rn rd rs : Reg) (sh : ShiftType) (rm : Reg)
  /-- `SUB`, format W-DPI (R177). -/
  | subImm (c : Cond) (sf : Bool) (rn rd : Reg) (rot : BitVec 4) (imm : BitVec 8)
  /-- `SUB`, format W-DPIS (R177). -/
  | subReg (c : Cond) (sf : Bool) (rn rd : Reg) (amount : BitVec 5) (sh : ShiftType) (rm : Reg)
  /-- `SUB`, format W-DPRS (R177). -/
  | subRsr (c : Cond) (sf : Bool) (rn rd rs : Reg) (sh : ShiftType) (rm : Reg)
  /-- `RSB`, format W-DPI (R178). -/
  | rsbImm (c : Cond) (sf : Bool) (rn rd : Reg) (rot : BitVec 4) (imm : BitVec 8)
  /-- `RSB`, format W-DPIS (R178). -/
  | rsbReg (c : Cond) (sf : Bool) (rn rd : Reg) (amount : BitVec 5) (sh : ShiftType) (rm : Reg)
  /-- `RSB`, format W-DPRS (R178). -/
  | rsbRsr (c : Cond) (sf : Bool) (rn rd rs : Reg) (sh : ShiftType) (rm : Reg)
  /-- `ADD`, format W-DPI (R179). -/
  | addImm (c : Cond) (sf : Bool) (rn rd : Reg) (rot : BitVec 4) (imm : BitVec 8)
  /-- `ADD`, format W-DPIS (R179). -/
  | addReg (c : Cond) (sf : Bool) (rn rd : Reg) (amount : BitVec 5) (sh : ShiftType) (rm : Reg)
  /-- `ADD`, format W-DPRS (R179). -/
  | addRsr (c : Cond) (sf : Bool) (rn rd rs : Reg) (sh : ShiftType) (rm : Reg)
  /-- `ADC`, format W-DPI (R180). -/
  | adcImm (c : Cond) (sf : Bool) (rn rd : Reg) (rot : BitVec 4) (imm : BitVec 8)
  /-- `ADC`, format W-DPIS (R180). -/
  | adcReg (c : Cond) (sf : Bool) (rn rd : Reg) (amount : BitVec 5) (sh : ShiftType) (rm : Reg)
  /-- `ADC`, format W-DPRS (R180). -/
  | adcRsr (c : Cond) (sf : Bool) (rn rd rs : Reg) (sh : ShiftType) (rm : Reg)
  /-- `SBC`, format W-DPI (R181). -/
  | sbcImm (c : Cond) (sf : Bool) (rn rd : Reg) (rot : BitVec 4) (imm : BitVec 8)
  /-- `SBC`, format W-DPIS (R181). -/
  | sbcReg (c : Cond) (sf : Bool) (rn rd : Reg) (amount : BitVec 5) (sh : ShiftType) (rm : Reg)
  /-- `SBC`, format W-DPRS (R181). -/
  | sbcRsr (c : Cond) (sf : Bool) (rn rd rs : Reg) (sh : ShiftType) (rm : Reg)
  /-- `RSC`, format W-DPI (R182). -/
  | rscImm (c : Cond) (sf : Bool) (rn rd : Reg) (rot : BitVec 4) (imm : BitVec 8)
  /-- `RSC`, format W-DPIS (R182). -/
  | rscReg (c : Cond) (sf : Bool) (rn rd : Reg) (amount : BitVec 5) (sh : ShiftType) (rm : Reg)
  /-- `RSC`, format W-DPRS (R182). -/
  | rscRsr (c : Cond) (sf : Bool) (rn rd rs : Reg) (sh : ShiftType) (rm : Reg)
  /-- `TST`, format W-DPI (R183). -/
  | tstImm (c : Cond) (rn rd : Reg) (rot : BitVec 4) (imm : BitVec 8)
  /-- `TST`, format W-DPIS (R183). -/
  | tstReg (c : Cond) (rn rd : Reg) (amount : BitVec 5) (sh : ShiftType) (rm : Reg)
  /-- `TST`, format W-DPRS (R183). -/
  | tstRsr (c : Cond) (rn rd rs : Reg) (sh : ShiftType) (rm : Reg)
  /-- `TEQ`, format W-DPI (R184). -/
  | teqImm (c : Cond) (rn rd : Reg) (rot : BitVec 4) (imm : BitVec 8)
  /-- `TEQ`, format W-DPIS (R184). -/
  | teqReg (c : Cond) (rn rd : Reg) (amount : BitVec 5) (sh : ShiftType) (rm : Reg)
  /-- `TEQ`, format W-DPRS (R184). -/
  | teqRsr (c : Cond) (rn rd rs : Reg) (sh : ShiftType) (rm : Reg)
  /-- `CMP`, format W-DPI (R185). -/
  | cmpImm (c : Cond) (rn rd : Reg) (rot : BitVec 4) (imm : BitVec 8)
  /-- `CMP`, format W-DPIS (R185). -/
  | cmpReg (c : Cond) (rn rd : Reg) (amount : BitVec 5) (sh : ShiftType) (rm : Reg)
  /-- `CMP`, format W-DPRS (R185). -/
  | cmpRsr (c : Cond) (rn rd rs : Reg) (sh : ShiftType) (rm : Reg)
  /-- `CMN`, format W-DPI (R186). -/
  | cmnImm (c : Cond) (rn rd : Reg) (rot : BitVec 4) (imm : BitVec 8)
  /-- `CMN`, format W-DPIS (R186). -/
  | cmnReg (c : Cond) (rn rd : Reg) (amount : BitVec 5) (sh : ShiftType) (rm : Reg)
  /-- `CMN`, format W-DPRS (R186). -/
  | cmnRsr (c : Cond) (rn rd rs : Reg) (sh : ShiftType) (rm : Reg)
  /-- `ORR`, format W-DPI (R187). -/
  | orrImm (c : Cond) (sf : Bool) (rn rd : Reg) (rot : BitVec 4) (imm : BitVec 8)
  /-- `ORR`, format W-DPIS (R187). -/
  | orrReg (c : Cond) (sf : Bool) (rn rd : Reg) (amount : BitVec 5) (sh : ShiftType) (rm : Reg)
  /-- `ORR`, format W-DPRS (R187). -/
  | orrRsr (c : Cond) (sf : Bool) (rn rd rs : Reg) (sh : ShiftType) (rm : Reg)
  /-- `MOV`, format W-DPI (R188). -/
  | movImm (c : Cond) (sf : Bool) (rn rd : Reg) (rot : BitVec 4) (imm : BitVec 8)
  /-- `MOV`, format W-DPIS (R188). -/
  | movReg (c : Cond) (sf : Bool) (rn rd : Reg) (amount : BitVec 5) (sh : ShiftType) (rm : Reg)
  /-- `MOV`, format W-DPRS (R188). -/
  | movRsr (c : Cond) (sf : Bool) (rn rd rs : Reg) (sh : ShiftType) (rm : Reg)
  /-- `BIC`, format W-DPI (R189). -/
  | bicImm (c : Cond) (sf : Bool) (rn rd : Reg) (rot : BitVec 4) (imm : BitVec 8)
  /-- `BIC`, format W-DPIS (R189). -/
  | bicReg (c : Cond) (sf : Bool) (rn rd : Reg) (amount : BitVec 5) (sh : ShiftType) (rm : Reg)
  /-- `BIC`, format W-DPRS (R189). -/
  | bicRsr (c : Cond) (sf : Bool) (rn rd rs : Reg) (sh : ShiftType) (rm : Reg)
  /-- `MVN`, format W-DPI (R190). -/
  | mvnImm (c : Cond) (sf : Bool) (rn rd : Reg) (rot : BitVec 4) (imm : BitVec 8)
  /-- `MVN`, format W-DPIS (R190). -/
  | mvnReg (c : Cond) (sf : Bool) (rn rd : Reg) (amount : BitVec 5) (sh : ShiftType) (rm : Reg)
  /-- `MVN`, format W-DPRS (R190). -/
  | mvnRsr (c : Cond) (sf : Bool) (rn rd rs : Reg) (sh : ShiftType) (rm : Reg)
  -- wide miscellaneous and multiply, 42_wide_misc_multiply.md
  /-- `MRS`, format W-MRS (R200). -/
  | mrs (c : Cond) (saved : Bool) (rd : Reg)
  /-- `MSR__register`, format W-MSRR (R201). -/
  | msrReg (c : Cond) (saved : Bool) (mask : BitVec 4) (rm : Reg)
  /-- `MSR__immediate`, format W-MSRI (R202). -/
  | msrImm (c : Cond) (saved : Bool) (mask rot : BitVec 4) (imm : BitVec 8)
  /-- `BX`, format W-BX (R204). -/
  | bx (c : Cond) (rm : Reg)
  /-- `BXJ`, format W-BXJ (R217). -/
  | bxj (c : Cond) (rm : Reg)
  /-- `BLX__register`, format W-BX (R205). -/
  | blxReg (c : Cond) (rm : Reg)
  /-- `CLZ`, format W-CLZ (R206). -/
  | clz (c : Cond) (rd rm : Reg)
  /-- `QADD`, format W-SAT (R218). -/
  | qadd (c : Cond) (rn rd rm : Reg)
  /-- `QSUB`, format W-SAT (R218). -/
  | qsub (c : Cond) (rn rd rm : Reg)
  /-- `QDADD`, format W-SAT (R218). -/
  | qdadd (c : Cond) (rn rd rm : Reg)
  /-- `QDSUB`, format W-SAT (R218). -/
  | qdsub (c : Cond) (rn rd rm : Reg)
  /-- `BKPT`, format W-BKPT (R219). -/
  | bkpt (c : Cond) (imm12 : BitVec 12) (imm4 : BitVec 4)
  /-- `SMLA<x><y>`, format W-DSPMUL (R203). -/
  | smlaXY (c : Cond) (rd rn rs : Reg) (y x : Bool) (rm : Reg)
  /-- `SMLAW_y__SMULW_y`, format W-DSPMUL (R207). -/
  | smlawSmulw (c : Cond) (rd rn rs : Reg) (y x : Bool) (rm : Reg)
  /-- `SMLAL<x><y>`, format W-DSPMUL (R208). -/
  | smlalXY (c : Cond) (rdHi rdLo rs : Reg) (y x : Bool) (rm : Reg)
  /-- `SMUL<x><y>`, format W-DSPMUL (R209). -/
  | smulXY (c : Cond) (rd : Reg) (ignored : BitVec 4) (rs : Reg) (y x : Bool) (rm : Reg)
  /-- `MUL`, format W-MUL (R210). -/
  | mul (c : Cond) (sf : Bool) (rd rs rm : Reg)
  /-- `MLA`, format W-MUL (R211). -/
  | mla (c : Cond) (sf : Bool) (rd rn rs rm : Reg)
  /-- `UMAAL`, format W-UMAAL (R216). -/
  | umaal (c : Cond) (rdHi rdLo rs rm : Reg)
  /-- `UMULL`, format W-MULL (R212). -/
  | umull (c : Cond) (sf : Bool) (rdHi rdLo rs rm : Reg)
  /-- `UMLAL`, format W-MULL (R213). -/
  | umlal (c : Cond) (sf : Bool) (rdHi rdLo rs rm : Reg)
  /-- `SMULL`, format W-MULL (R214). -/
  | smull (c : Cond) (sf : Bool) (rdHi rdLo rs rm : Reg)
  /-- `SMLAL`, format W-MULL (R215). -/
  | smlal (c : Cond) (sf : Bool) (rdHi rdLo rs rm : Reg)
  -- wide swap, exclusive, single and extra load/store, 43_wide_load_store.md
  /-- `SWP`, format W-SWP (R251). -/
  | swp (c : Cond) (rn rd rm : Reg)
  /-- `SWPB`, format W-SWP (R251). -/
  | swpb (c : Cond) (rn rd rm : Reg)
  /-- `STREX`, format W-STREX (R252). -/
  | strex (c : Cond) (rn rd rm : Reg)
  /-- `LDREX`, format W-LDREX (R252). -/
  | ldrex (c : Cond) (rn rd : Reg)
  /-- `STRH__immediate_offset`, format W-XLSI (R245). -/
  | strhImm (c : Cond) (p u w : Bool) (rn rd : Reg) (immH immL : BitVec 4)
  /-- `STRH__register_offset`, format W-XLSR (R245). -/
  | strhReg (c : Cond) (p u w : Bool) (rn rd rm : Reg)
  /-- `LDRD__immediate_offset`, format W-XLSI (R248). -/
  | ldrdImm (c : Cond) (p u w : Bool) (rn rd : Reg) (immH immL : BitVec 4)
  /-- `LDRD__register_offset`, format W-XLSR (R248). -/
  | ldrdReg (c : Cond) (p u w : Bool) (rn rd rm : Reg)
  /-- `STRD__immediate_offset`, format W-XLSI (R249). -/
  | strdImm (c : Cond) (p u w : Bool) (rn rd : Reg) (immH immL : BitVec 4)
  /-- `STRD__register_offset`, format W-XLSR (R249). -/
  | strdReg (c : Cond) (p u w : Bool) (rn rd rm : Reg)
  /-- `LDRH__immediate_offset`, format W-XLSI (R244). -/
  | ldrhImm (c : Cond) (p u w : Bool) (rn rd : Reg) (immH immL : BitVec 4)
  /-- `LDRH__register_offset`, format W-XLSR (R244). -/
  | ldrhReg (c : Cond) (p u w : Bool) (rn rd rm : Reg)
  /-- `LDRSB__immediate_offset`, format W-XLSI (R246). -/
  | ldrsbImm (c : Cond) (p u w : Bool) (rn rd : Reg) (immH immL : BitVec 4)
  /-- `LDRSB__register_offset`, format W-XLSR (R246). -/
  | ldrsbReg (c : Cond) (p u w : Bool) (rn rd rm : Reg)
  /-- `LDRSH__immediate_offset`, format W-XLSI (R247). -/
  | ldrshImm (c : Cond) (p u w : Bool) (rn rd : Reg) (immH immL : BitVec 4)
  /-- `LDRSH__register_offset`, format W-XLSR (R247). -/
  | ldrshReg (c : Cond) (p u w : Bool) (rn rd rm : Reg)
  /-- `STR__immediate_offset`, format W-LSI (R237). -/
  | strImm (c : Cond) (p u w : Bool) (rn rd : Reg) (imm12 : BitVec 12)
  /-- `STR__register_scaled_offset`, format W-LSR (R237). -/
  | strReg (c : Cond) (p u w : Bool) (rn rd : Reg) (amount : BitVec 5) (sh : ShiftType) (rm : Reg)
  /-- `STRT__immediate_offset`, format W-LSI (R241). -/
  | strtImm (c : Cond) (u : Bool) (rn rd : Reg) (imm12 : BitVec 12)
  /-- `STRT__register_scaled_offset`, format W-LSR (R241). -/
  | strtReg (c : Cond) (u : Bool) (rn rd : Reg) (amount : BitVec 5) (sh : ShiftType) (rm : Reg)
  /-- `LDR__immediate_offset`, format W-LSI (R236). -/
  | ldrImm (c : Cond) (p u w : Bool) (rn rd : Reg) (imm12 : BitVec 12)
  /-- `LDR__register_scaled_offset`, format W-LSR (R236). -/
  | ldrReg (c : Cond) (p u w : Bool) (rn rd : Reg) (amount : BitVec 5) (sh : ShiftType) (rm : Reg)
  /-- `LDRT__immediate_offset`, format W-LSI (R240). -/
  | ldrtImm (c : Cond) (u : Bool) (rn rd : Reg) (imm12 : BitVec 12)
  /-- `LDRT__register_scaled_offset`, format W-LSR (R240). -/
  | ldrtReg (c : Cond) (u : Bool) (rn rd : Reg) (amount : BitVec 5) (sh : ShiftType) (rm : Reg)
  /-- `STRB__immediate_offset`, format W-LSI (R239). -/
  | strbImm (c : Cond) (p u w : Bool) (rn rd : Reg) (imm12 : BitVec 12)
  /-- `STRB__register_scaled_offset`, format W-LSR (R239). -/
  | strbReg (c : Cond) (p u w : Bool) (rn rd : Reg) (amount : BitVec 5) (sh : ShiftType) (rm : Reg)
  /-- `STRBT__immediate_offset`, format W-LSI (R243). -/
  | strbtImm (c : Cond) (u : Bool) (rn rd : Reg) (imm12 : BitVec 12)
  /-- `STRBT__register_scaled_offset`, format W-LSR (R243). -/
  | strbtReg (c : Cond) (u : Bool) (rn rd : Reg) (amount : BitVec 5) (sh : ShiftType) (rm : Reg)
  /-- `LDRB__immediate_offset`, format W-LSI (R238). -/
  | ldrbImm (c : Cond) (p u w : Bool) (rn rd : Reg) (imm12 : BitVec 12)
  /-- `LDRB__register_scaled_offset`, format W-LSR (R238). -/
  | ldrbReg (c : Cond) (p u w : Bool) (rn rd : Reg) (amount : BitVec 5) (sh : ShiftType) (rm : Reg)
  /-- `LDRBT__immediate_offset`, format W-LSI (R242). -/
  | ldrbtImm (c : Cond) (u : Bool) (rn rd : Reg) (imm12 : BitVec 12)
  /-- `LDRBT__register_scaled_offset`, format W-LSR (R242). -/
  | ldrbtReg (c : Cond) (u : Bool) (rn rd : Reg) (amount : BitVec 5) (sh : ShiftType) (rm : Reg)
  -- wide media, block transfer, branch, coprocessor, software interrupt, 44_wide_branch_block_swi.md
  /-- `MEDIA__any`, format W-MEDIA (R264). -/
  | media (c : Cond) (hi : BitVec 20) (lo : BitVec 4)
  /-- `STM`, format W-LDM (R263). -/
  | stm (c : Cond) (p u sb w : Bool) (rn : Reg) (list : BitVec 16)
  /-- `LDM`, format W-LDM (R262). -/
  | ldm (c : Cond) (p u sb w : Bool) (rn : Reg) (list : BitVec 16)
  /-- `B`, format W-B (R260). -/
  | b (c : Cond) (imm24 : BitVec 24)
  /-- `BL`, format W-B (R261). -/
  | bl (c : Cond) (imm24 : BitVec 24)
  /-- `LDC_STC_MCRR_MRRC__coprocessor_load_store`, format W-COP (R265). -/
  | copMem (c : Cond) (bits : BitVec 25)
  /-- `CDP_MCR_MRC__coprocessor_data_register`, format W-COP (R266). -/
  | copReg (c : Cond) (bits : BitVec 24)
  /-- `SWI__0x123456__syscall_trap`, format W-SWI (R267). -/
  | swiTrap (c : Cond)
  /-- `SWI__other_immediate`, format W-SWI (R268). -/
  | swiOther (c : Cond) (imm24 : BitVec 24)
  -- compact shift, arithmetic, logic, high registers, branch/exchange, 45_compact_alu.md
  /-- `LSL__immediate`, format T-SHI (R281). -/
  | cLslImm (imm5 : BitVec 5) (rm rd : LowReg)
  /-- `LSR__immediate`, format T-SHI (R282). -/
  | cLsrImm (imm5 : BitVec 5) (rm rd : LowReg)
  /-- `ASR__immediate`, format T-SHI (R283). -/
  | cAsrImm (imm5 : BitVec 5) (rm rd : LowReg)
  /-- `ADD__register`, format T-AS3 (R284). -/
  | cAddReg (rm rn rd : LowReg)
  /-- `SUB__register`, format T-AS3 (R285). -/
  | cSubReg (rm rn rd : LowReg)
  /-- `ADD__3-bit_immediate`, format T-AS3 (R286). -/
  | cAddImm3 (imm3 : BitVec 3) (rn rd : LowReg)
  /-- `SUB__3-bit_immediate`, format T-AS3 (R287). -/
  | cSubImm3 (imm3 : BitVec 3) (rn rd : LowReg)
  /-- `MOV__8-bit_immediate`, format T-I8 (R288). -/
  | cMovImm8 (rd : LowReg) (imm8 : BitVec 8)
  /-- `CMP__8-bit_immediate`, format T-I8 (R289). -/
  | cCmpImm8 (rd : LowReg) (imm8 : BitVec 8)
  /-- `ADD__8-bit_immediate`, format T-I8 (R290). -/
  | cAddImm8 (rd : LowReg) (imm8 : BitVec 8)
  /-- `SUB__8-bit_immediate`, format T-I8 (R291). -/
  | cSubImm8 (rd : LowReg) (imm8 : BitVec 8)
  /-- `AND__register`, format T-ALU (R301). -/
  | cAnd (rm rd : LowReg)
  /-- `EOR__register`, format T-ALU (R302). -/
  | cEor (rm rd : LowReg)
  /-- `LSL__register`, format T-ALU (R303). -/
  | cLsl (rm rd : LowReg)
  /-- `LSR__register`, format T-ALU (R304). -/
  | cLsr (rm rd : LowReg)
  /-- `ASR__register`, format T-ALU (R305). -/
  | cAsr (rm rd : LowReg)
  /-- `ADC__register`, format T-ALU (R306). -/
  | cAdc (rm rd : LowReg)
  /-- `SBC__register`, format T-ALU (R307). -/
  | cSbc (rm rd : LowReg)
  /-- `ROR__register`, format T-ALU (R308). -/
  | cRor (rm rd : LowReg)
  /-- `TST__register`, format T-ALU (R309). -/
  | cTst (rm rd : LowReg)
  /-- `NEG__register`, format T-ALU (R310). -/
  | cNeg (rm rd : LowReg)
  /-- `CMP__register`, format T-ALU (R311). -/
  | cCmp (rm rd : LowReg)
  /-- `CMN__register`, format T-ALU (R312). -/
  | cCmn (rm rd : LowReg)
  /-- `ORR__register`, format T-ALU (R313). -/
  | cOrr (rm rd : LowReg)
  /-- `MUL__register`, format T-ALU (R314). -/
  | cMul (rm rd : LowReg)
  /-- `BIC__register`, format T-ALU (R315). -/
  | cBic (rm rd : LowReg)
  /-- `MVN__register`, format T-ALU (R316). -/
  | cMvn (rm rd : LowReg)
  /-- `ADD__high_registers`, format T-HI (R321). -/
  | cAddHi (rm rd : Reg)
  /-- `CMP__high_registers`, format T-HI (R322). -/
  | cCmpHi (rm rd : Reg)
  /-- `MOV__high_registers`, format T-HI (R323). -/
  | cMovHi (rm rd : Reg)
  /-- `BX`, format T-HI (R325). -/
  | cBx (rm : Reg)
  /-- `BLX__register`, format T-HI (R326). -/
  | cBlxReg (rm : Reg)
  -- compact load/store, address formation, push, pop, multiple, 46_compact_load_store.md; SP adjust, extend, reverse,
  -- branches, the BL pair, software interrupt, 47_compact_misc_branch.md
  /-- `LDR__literal`, format T-LIT (R340). -/
  | cLdrLit (rd : LowReg) (imm8 : BitVec 8)
  /-- `STR__register_offset`, format T-LSR (R342). -/
  | cStrReg (rm rn rd : LowReg)
  /-- `STRH__register_offset`, format T-LSR (R343). -/
  | cStrhReg (rm rn rd : LowReg)
  /-- `STRB__register_offset`, format T-LSR (R344). -/
  | cStrbReg (rm rn rd : LowReg)
  /-- `LDRSB__register_offset`, format T-LSR (R345). -/
  | cLdrsbReg (rm rn rd : LowReg)
  /-- `LDR__register_offset`, format T-LSR (R346). -/
  | cLdrReg (rm rn rd : LowReg)
  /-- `LDRH__register_offset`, format T-LSR (R347). -/
  | cLdrhReg (rm rn rd : LowReg)
  /-- `LDRB__register_offset`, format T-LSR (R348). -/
  | cLdrbReg (rm rn rd : LowReg)
  /-- `LDRSH__register_offset`, format T-LSR (R349). -/
  | cLdrshReg (rm rn rd : LowReg)
  /-- `STR__immediate_offset`, format T-LSI5 (R351). -/
  | cStrImm (imm5 : BitVec 5) (rn rd : LowReg)
  /-- `LDR__immediate_offset`, format T-LSI5 (R352). -/
  | cLdrImm (imm5 : BitVec 5) (rn rd : LowReg)
  /-- `STRB__immediate_offset`, format T-LSI5 (R353). -/
  | cStrbImm (imm5 : BitVec 5) (rn rd : LowReg)
  /-- `LDRB__immediate_offset`, format T-LSI5 (R354). -/
  | cLdrbImm (imm5 : BitVec 5) (rn rd : LowReg)
  /-- `STRH__immediate_offset`, format T-LSH (R355). -/
  | cStrhImm (imm5 : BitVec 5) (rn rd : LowReg)
  /-- `LDRH__immediate_offset`, format T-LSH (R356). -/
  | cLdrhImm (imm5 : BitVec 5) (rn rd : LowReg)
  /-- `STR__SP-relative`, format T-LSSP (R357). -/
  | cStrSp (rd : LowReg) (imm8 : BitVec 8)
  /-- `LDR__SP-relative`, format T-LSSP (R358). -/
  | cLdrSp (rd : LowReg) (imm8 : BitVec 8)
  /-- `ADD__PC-relative_address`, format T-ADR (R359). -/
  | cAddPc (rd : LowReg) (imm8 : BitVec 8)
  /-- `ADD__SP-relative_address`, format T-ADR (R360). -/
  | cAddSp (rd : LowReg) (imm8 : BitVec 8)
  /-- `ADD__SP_plus_immediate`, format T-SPADJ (R380). -/
  | cAddSpImm (imm7 : BitVec 7)
  /-- `SUB__SP_minus_immediate`, format T-SPADJ (R381). -/
  | cSubSpImm (imm7 : BitVec 7)
  /-- `SXTH`, format T-EXT (R382). -/
  | cSxth (rm rd : LowReg)
  /-- `SXTB`, format T-EXT (R383). -/
  | cSxtb (rm rd : LowReg)
  /-- `UXTH`, format T-EXT (R384). -/
  | cUxth (rm rd : LowReg)
  /-- `UXTB`, format T-EXT (R385). -/
  | cUxtb (rm rd : LowReg)
  /-- `PUSH`, format T-PUSH (R365). -/
  | cPush (lr : Bool) (list : BitVec 8)
  /-- `POP`, format T-PUSH (R366). -/
  | cPop (pc : Bool) (list : BitVec 8)
  /-- `SETEND`, format T-SETEND (R392). -/
  | cSetend (e : Bool)
  /-- `CPS`, format T-CPS (R390). -/
  | cCps (imod a i f : Bool)
  /-- `REV`, format T-REV (R386). -/
  | cRev (rm rd : LowReg)
  /-- `REV16`, format T-REV (R387). -/
  | cRev16 (rm rd : LowReg)
  /-- `unallocated_reversal_op_10`, format T-REV (R389). -/
  | cRevUnalloc (rm rd : LowReg)
  /-- `REVSH`, format T-REV (R388). -/
  | cRevsh (rm rd : LowReg)
  /-- `BKPT`, format T-BKPT (R391). -/
  | cBkpt (imm8 : BitVec 8)
  /-- `STMIA`, format T-LDM (R369). -/
  | cStmia (rn : LowReg) (list : BitVec 8)
  /-- `LDMIA`, format T-LDM (R368). -/
  | cLdmia (rn : LowReg) (list : BitVec 8)
  /-- `B<cond>`, format T-BCC (R395). -/
  | cBcond (c : Cond) (imm8 : BitVec 8)
  /-- `conditional_branch__cond___1110`, format T-BCC (R396). -/
  | cBcond1110 (imm8 : BitVec 8)
  /-- `SWI__0xAB__syscall_trap`, format T-SWI (R401). -/
  | cSwiTrap
  /-- `SWI__other_immediate`, format T-SWI (R402). -/
  | cSwiOther (imm8 : BitVec 8)
  /-- `B`, format T-B (R397). -/
  | cB (imm11 : BitVec 11)
  /-- `BLX_suffix`, format T-BLXS (R400). -/
  | cBlxSuffix (imm11 : BitVec 11)
  /-- `BL_prefix`, format T-BLP (R398). -/
  | cBlPrefix (imm11 : BitVec 11)
  /-- `BL_suffix`, format T-BLS (R399). -/
  | cBlSuffix (imm11 : BitVec 11)
deriving DecidableEq, Repr

end Sys2Proof
end

