-- ==== Sys2Proof/WellFormed.lean ====
section
/-! DEFINITION. Which terms of `Instr` are instructions: the carvings of spec/opcode_table.json (its `exclude`
entries, 30_encoding.md R108), which the field types do not already express. -/

namespace Sys2Proof

/-- `P = 0, W = 1` is no indexing of the rows that hold this check: the word belongs to LDRT, STRT, LDRBT, STRBT, or
to no row (30_encoding.md R98, R108, 43_wide_load_store.md R234). -/
def indexingOk (p w : Bool) : Bool := p || !w

/-- The trap immediate of the wide software interrupt (30_encoding.md R96). -/
def wideTrapImm : BitVec 24 := 0x123456#24

/-- The trap immediate of the compact software interrupt (30_encoding.md R103). -/
def compactTrapImm : BitVec 8 := 0xAB#8

/-- The instruction is one the encoding has a word for (30_encoding.md R108). -/
def Instr.wellFormed : Instr → Bool
  | .strhImm _ p _ w _ _ _ _ | .ldrdImm _ p _ w _ _ _ _ | .strdImm _ p _ w _ _ _ _
  | .ldrhImm _ p _ w _ _ _ _ | .ldrsbImm _ p _ w _ _ _ _ | .ldrshImm _ p _ w _ _ _ _ => indexingOk p w
  | .strhReg _ p _ w _ _ _ | .ldrdReg _ p _ w _ _ _ | .strdReg _ p _ w _ _ _
  | .ldrhReg _ p _ w _ _ _ | .ldrsbReg _ p _ w _ _ _ | .ldrshReg _ p _ w _ _ _ => indexingOk p w
  | .strImm _ p _ w _ _ _ | .ldrImm _ p _ w _ _ _ | .strbImm _ p _ w _ _ _ | .ldrbImm _ p _ w _ _ _ => indexingOk p w
  | .strReg _ p _ w _ _ _ _ _ | .ldrReg _ p _ w _ _ _ _ _ | .strbReg _ p _ w _ _ _ _ _
  | .ldrbReg _ p _ w _ _ _ _ _ => indexingOk p w
  | .swiOther _ imm24 => imm24 != wideTrapImm
  | .cSwiOther imm8 => imm8 != compactTrapImm
  | .cBcond c _ => c != .al
  | _ => true

end Sys2Proof
end

