-- ==== Sys2Proof/Decode.lean ====
section
/-! DEFINITION. The two decoders (30_encoding.md R92 to R104), total on every word and rejecting by name, and the
encoder written from the same formats (R94, R101). -/

namespace Sys2Proof

/-- The bits of one instruction: a wide word or a compact half-word (30_encoding.md R91). -/
inductive Code where
  | wide (w : Word)
  | compact (h : Half)
deriving DecidableEq, Repr

/-- Why a word is no instruction. -/
inductive DecodeError where
  /-- Wide `cond = 1111` (30_encoding.md R99): undefined before any condition is evaluated. -/
  | conditionReserved
  /-- The word selects no row of the opcode table (30_encoding.md R98, R104). -/
  | noRow
deriving DecidableEq, Repr

/-! ## Field helpers -/

/-- One bit of a word. -/
def bit (w : BitVec n) (i : Nat) : Bool := w.getLsbD i

/-- The field of `len` bits whose lowest bit is bit `lo`. -/
def field (w : BitVec n) (lo len : Nat) : BitVec len := w.extractLsb' lo len

/-- The condition code numbers (40_cond_shifter_alu.md R130). -/
def Cond.ofBits (b : BitVec 4) : Option Cond :=
  match b with
  | 0x0#4 => some .eq
  | 0x1#4 => some .ne
  | 0x2#4 => some .cs
  | 0x3#4 => some .cc
  | 0x4#4 => some .mi
  | 0x5#4 => some .pl
  | 0x6#4 => some .vs
  | 0x7#4 => some .vc
  | 0x8#4 => some .hi
  | 0x9#4 => some .ls
  | 0xA#4 => some .ge
  | 0xB#4 => some .lt
  | 0xC#4 => some .gt
  | 0xD#4 => some .le
  | 0xE#4 => some .al
  | _ => none

/-- The code number of a condition (40_cond_shifter_alu.md R130). -/
def Cond.toBits : Cond → BitVec 4
  | .eq => 0x0#4
  | .ne => 0x1#4
  | .cs => 0x2#4
  | .cc => 0x3#4
  | .mi => 0x4#4
  | .pl => 0x5#4
  | .vs => 0x6#4
  | .vc => 0x7#4
  | .hi => 0x8#4
  | .ls => 0x9#4
  | .ge => 0xA#4
  | .lt => 0xB#4
  | .gt => 0xC#4
  | .le => 0xD#4
  | .al => 0xE#4

/-- The shift type field `tt` (30_encoding.md R94). -/
def ShiftType.ofBits (b : BitVec 2) : ShiftType :=
  match b with
  | 0b00#2 => .lsl
  | 0b01#2 => .lsr
  | 0b10#2 => .asr
  | _ => .ror

/-- The bits of a shift type (30_encoding.md R94). -/
def ShiftType.toBits : ShiftType → BitVec 2
  | .lsl => 0b00#2
  | .lsr => 0b01#2
  | .asr => 0b10#2
  | .ror => 0b11#2

/-! ## The wide decoder -/

/-- The half-word multiplies, W-DSPMUL, by `oo` (30_encoding.md R94). -/
def decodeHalfMul (c : Cond) (w : Word) : Instr :=
  match field w 21 2 with
  | 0b00#2 => .smlaXY c (field w 16 4) (field w 12 4) (field w 8 4) (bit w 6) (bit w 5) (field w 0 4)
  | 0b01#2 => .smlawSmulw c (field w 16 4) (field w 12 4) (field w 8 4) (bit w 6) (bit w 5) (field w 0 4)
  | 0b10#2 => .smlalXY c (field w 16 4) (field w 12 4) (field w 8 4) (bit w 6) (bit w 5) (field w 0 4)
  | _ => .smulXY c (field w 16 4) (field w 12 4) (field w 8 4) (bit w 6) (bit w 5) (field w 0 4)

/-- The saturating adds and subtracts, W-SAT, by `oo` (30_encoding.md R94). -/
def decodeSaturating (c : Cond) (w : Word) : Instr :=
  match field w 21 2 with
  | 0b00#2 => .qadd c (field w 16 4) (field w 12 4) (field w 0 4)
  | 0b01#2 => .qsub c (field w 16 4) (field w 12 4) (field w 0 4)
  | 0b10#2 => .qdadd c (field w 16 4) (field w 12 4) (field w 0 4)
  | _ => .qdsub c (field w 16 4) (field w 12 4) (field w 0 4)

/-- W-MRS and W-MSRR (30_encoding.md R94), strict in their fixed fields (R97). -/
def decodeStatusMove (c : Cond) (w : Word) : Except DecodeError Instr :=
  if bit w 21 then
    if field w 12 4 = 0xF#4 ∧ field w 8 4 = 0#4 then .ok (.msrReg c (bit w 22) (field w 16 4) (field w 0 4))
    else .error .noRow
  else
    if field w 16 4 = 0xF#4 ∧ field w 8 4 = 0#4 ∧ field w 0 4 = 0#4 then .ok (.mrs c (bit w 22) (field w 12 4))
    else .error .noRow

/-- W-BX with `instr[7:4] = 0001`, and W-CLZ, which shares that value (30_encoding.md R94). -/
def decodeBxClz (c : Cond) (w : Word) : Except DecodeError Instr :=
  match field w 21 2 with
  | 0b01#2 => if field w 8 12 = 0xFFF#12 then .ok (.bx c (field w 0 4)) else .error .noRow
  | 0b11#2 =>
    if field w 16 4 = 0xF#4 ∧ field w 8 4 = 0xF#4 then .ok (.clz c (field w 12 4) (field w 0 4)) else .error .noRow
  | _ => .error .noRow

/-- The miscellaneous space (30_encoding.md R93, 42_wide_misc_multiply.md R220): `instr[24:23] = 10` and
`instr[20] = 0`, by `instr[7:4]` and `instr[22:21]`. -/
def decodeMisc (c : Cond) (w : Word) : Except DecodeError Instr :=
  match field w 4 4 with
  | 0x0#4 => decodeStatusMove c w
  | 0x1#4 => decodeBxClz c w
  | 0x2#4 =>
    if field w 21 2 = 0b01#2 ∧ field w 8 12 = 0xFFF#12 then .ok (.bxj c (field w 0 4)) else .error .noRow
  | 0x3#4 =>
    if field w 21 2 = 0b01#2 ∧ field w 8 12 = 0xFFF#12 then .ok (.blxReg c (field w 0 4)) else .error .noRow
  | 0x5#4 => if field w 8 4 = 0#4 then .ok (decodeSaturating c w) else .error .noRow
  | 0x7#4 => if field w 21 2 = 0b01#2 then .ok (.bkpt c (field w 8 12) (field w 0 4)) else .error .noRow
  | 0x8#4 => .ok (decodeHalfMul c w)
  | 0xA#4 => .ok (decodeHalfMul c w)
  | 0xC#4 => .ok (decodeHalfMul c w)
  | 0xE#4 => .ok (decodeHalfMul c w)
  | _ => .error .noRow

/-- W-MSRI, strict in `instr[15:12]`; `instr[21] = 0` here is architecturally undefined (30_encoding.md R93, R94). -/
def decodeMsrImm (c : Cond) (w : Word) : Except DecodeError Instr :=
  if bit w 21 = true ∧ field w 12 4 = 0xF#4 then
    .ok (.msrImm c (bit w 22) (field w 16 4) (field w 8 4) (field w 0 8))
  else .error .noRow

/-- Class 001: W-DPI by the opcode numbers of R95, and the status-register write (30_encoding.md R93). -/
def decodeDataImm (c : Cond) (w : Word) : Except DecodeError Instr :=
  match field w 21 4 with
  | 0b0000#4 => .ok (.andImm c (bit w 20) (field w 16 4) (field w 12 4) (field w 8 4) (field w 0 8))
  | 0b0001#4 => .ok (.eorImm c (bit w 20) (field w 16 4) (field w 12 4) (field w 8 4) (field w 0 8))
  | 0b0010#4 => .ok (.subImm c (bit w 20) (field w 16 4) (field w 12 4) (field w 8 4) (field w 0 8))
  | 0b0011#4 => .ok (.rsbImm c (bit w 20) (field w 16 4) (field w 12 4) (field w 8 4) (field w 0 8))
  | 0b0100#4 => .ok (.addImm c (bit w 20) (field w 16 4) (field w 12 4) (field w 8 4) (field w 0 8))
  | 0b0101#4 => .ok (.adcImm c (bit w 20) (field w 16 4) (field w 12 4) (field w 8 4) (field w 0 8))
  | 0b0110#4 => .ok (.sbcImm c (bit w 20) (field w 16 4) (field w 12 4) (field w 8 4) (field w 0 8))
  | 0b0111#4 => .ok (.rscImm c (bit w 20) (field w 16 4) (field w 12 4) (field w 8 4) (field w 0 8))
  | 0b1000#4 => if bit w 20 then .ok (.tstImm c (field w 16 4) (field w 12 4) (field w 8 4) (field w 0 8)) else decodeMsrImm c w
  | 0b1001#4 => if bit w 20 then .ok (.teqImm c (field w 16 4) (field w 12 4) (field w 8 4) (field w 0 8)) else decodeMsrImm c w
  | 0b1010#4 => if bit w 20 then .ok (.cmpImm c (field w 16 4) (field w 12 4) (field w 8 4) (field w 0 8)) else decodeMsrImm c w
  | 0b1011#4 => if bit w 20 then .ok (.cmnImm c (field w 16 4) (field w 12 4) (field w 8 4) (field w 0 8)) else decodeMsrImm c w
  | 0b1100#4 => .ok (.orrImm c (bit w 20) (field w 16 4) (field w 12 4) (field w 8 4) (field w 0 8))
  | 0b1101#4 => .ok (.movImm c (bit w 20) (field w 16 4) (field w 12 4) (field w 8 4) (field w 0 8))
  | 0b1110#4 => .ok (.bicImm c (bit w 20) (field w 16 4) (field w 12 4) (field w 8 4) (field w 0 8))
  | _ => .ok (.mvnImm c (bit w 20) (field w 16 4) (field w 12 4) (field w 8 4) (field w 0 8))

/-- Class 000 with `instr[4] = 0`: W-DPIS by the opcode numbers of R95, and the miscellaneous space
(30_encoding.md R93). -/
def decodeDataReg (c : Cond) (w : Word) : Except DecodeError Instr :=
  match field w 21 4 with
  | 0b0000#4 => .ok (.andReg c (bit w 20) (field w 16 4) (field w 12 4) (field w 7 5) (.ofBits (field w 5 2)) (field w 0 4))
  | 0b0001#4 => .ok (.eorReg c (bit w 20) (field w 16 4) (field w 12 4) (field w 7 5) (.ofBits (field w 5 2)) (field w 0 4))
  | 0b0010#4 => .ok (.subReg c (bit w 20) (field w 16 4) (field w 12 4) (field w 7 5) (.ofBits (field w 5 2)) (field w 0 4))
  | 0b0011#4 => .ok (.rsbReg c (bit w 20) (field w 16 4) (field w 12 4) (field w 7 5) (.ofBits (field w 5 2)) (field w 0 4))
  | 0b0100#4 => .ok (.addReg c (bit w 20) (field w 16 4) (field w 12 4) (field w 7 5) (.ofBits (field w 5 2)) (field w 0 4))
  | 0b0101#4 => .ok (.adcReg c (bit w 20) (field w 16 4) (field w 12 4) (field w 7 5) (.ofBits (field w 5 2)) (field w 0 4))
  | 0b0110#4 => .ok (.sbcReg c (bit w 20) (field w 16 4) (field w 12 4) (field w 7 5) (.ofBits (field w 5 2)) (field w 0 4))
  | 0b0111#4 => .ok (.rscReg c (bit w 20) (field w 16 4) (field w 12 4) (field w 7 5) (.ofBits (field w 5 2)) (field w 0 4))
  | 0b1000#4 => if bit w 20 then .ok (.tstReg c (field w 16 4) (field w 12 4) (field w 7 5) (.ofBits (field w 5 2)) (field w 0 4)) else decodeMisc c w
  | 0b1001#4 => if bit w 20 then .ok (.teqReg c (field w 16 4) (field w 12 4) (field w 7 5) (.ofBits (field w 5 2)) (field w 0 4)) else decodeMisc c w
  | 0b1010#4 => if bit w 20 then .ok (.cmpReg c (field w 16 4) (field w 12 4) (field w 7 5) (.ofBits (field w 5 2)) (field w 0 4)) else decodeMisc c w
  | 0b1011#4 => if bit w 20 then .ok (.cmnReg c (field w 16 4) (field w 12 4) (field w 7 5) (.ofBits (field w 5 2)) (field w 0 4)) else decodeMisc c w
  | 0b1100#4 => .ok (.orrReg c (bit w 20) (field w 16 4) (field w 12 4) (field w 7 5) (.ofBits (field w 5 2)) (field w 0 4))
  | 0b1101#4 => .ok (.movReg c (bit w 20) (field w 16 4) (field w 12 4) (field w 7 5) (.ofBits (field w 5 2)) (field w 0 4))
  | 0b1110#4 => .ok (.bicReg c (bit w 20) (field w 16 4) (field w 12 4) (field w 7 5) (.ofBits (field w 5 2)) (field w 0 4))
  | _ => .ok (.mvnReg c (bit w 20) (field w 16 4) (field w 12 4) (field w 7 5) (.ofBits (field w 5 2)) (field w 0 4))

/-- Class 000 with `instr[7] = 0`, `instr[4] = 1`: W-DPRS by the opcode numbers of R95, and the miscellaneous space
(30_encoding.md R93). -/
def decodeDataRsr (c : Cond) (w : Word) : Except DecodeError Instr :=
  match field w 21 4 with
  | 0b0000#4 => .ok (.andRsr c (bit w 20) (field w 16 4) (field w 12 4) (field w 8 4) (.ofBits (field w 5 2)) (field w 0 4))
  | 0b0001#4 => .ok (.eorRsr c (bit w 20) (field w 16 4) (field w 12 4) (field w 8 4) (.ofBits (field w 5 2)) (field w 0 4))
  | 0b0010#4 => .ok (.subRsr c (bit w 20) (field w 16 4) (field w 12 4) (field w 8 4) (.ofBits (field w 5 2)) (field w 0 4))
  | 0b0011#4 => .ok (.rsbRsr c (bit w 20) (field w 16 4) (field w 12 4) (field w 8 4) (.ofBits (field w 5 2)) (field w 0 4))
  | 0b0100#4 => .ok (.addRsr c (bit w 20) (field w 16 4) (field w 12 4) (field w 8 4) (.ofBits (field w 5 2)) (field w 0 4))
  | 0b0101#4 => .ok (.adcRsr c (bit w 20) (field w 16 4) (field w 12 4) (field w 8 4) (.ofBits (field w 5 2)) (field w 0 4))
  | 0b0110#4 => .ok (.sbcRsr c (bit w 20) (field w 16 4) (field w 12 4) (field w 8 4) (.ofBits (field w 5 2)) (field w 0 4))
  | 0b0111#4 => .ok (.rscRsr c (bit w 20) (field w 16 4) (field w 12 4) (field w 8 4) (.ofBits (field w 5 2)) (field w 0 4))
  | 0b1000#4 => if bit w 20 then .ok (.tstRsr c (field w 16 4) (field w 12 4) (field w 8 4) (.ofBits (field w 5 2)) (field w 0 4)) else decodeMisc c w
  | 0b1001#4 => if bit w 20 then .ok (.teqRsr c (field w 16 4) (field w 12 4) (field w 8 4) (.ofBits (field w 5 2)) (field w 0 4)) else decodeMisc c w
  | 0b1010#4 => if bit w 20 then .ok (.cmpRsr c (field w 16 4) (field w 12 4) (field w 8 4) (.ofBits (field w 5 2)) (field w 0 4)) else decodeMisc c w
  | 0b1011#4 => if bit w 20 then .ok (.cmnRsr c (field w 16 4) (field w 12 4) (field w 8 4) (.ofBits (field w 5 2)) (field w 0 4)) else decodeMisc c w
  | 0b1100#4 => .ok (.orrRsr c (bit w 20) (field w 16 4) (field w 12 4) (field w 8 4) (.ofBits (field w 5 2)) (field w 0 4))
  | 0b1101#4 => .ok (.movRsr c (bit w 20) (field w 16 4) (field w 12 4) (field w 8 4) (.ofBits (field w 5 2)) (field w 0 4))
  | 0b1110#4 => .ok (.bicRsr c (bit w 20) (field w 16 4) (field w 12 4) (field w 8 4) (.ofBits (field w 5 2)) (field w 0 4))
  | _ => .ok (.mvnRsr c (bit w 20) (field w 16 4) (field w 12 4) (field w 8 4) (.ofBits (field w 5 2)) (field w 0 4))

/-- The multiplies, `instr[7:4] = 1001` and `instr[24] = 0` (30_encoding.md R94, 42_wide_misc_multiply.md R220). -/
def decodeMultiply (c : Cond) (w : Word) : Except DecodeError Instr :=
  match field w 21 3 with
  | 0b000#3 =>
    if field w 12 4 = 0#4 then .ok (.mul c (bit w 20) (field w 16 4) (field w 8 4) (field w 0 4)) else .error .noRow
  | 0b001#3 => .ok (.mla c (bit w 20) (field w 16 4) (field w 12 4) (field w 8 4) (field w 0 4))
  | 0b010#3 =>
    if bit w 20 then .error .noRow else .ok (.umaal c (field w 16 4) (field w 12 4) (field w 8 4) (field w 0 4))
  | 0b011#3 => .error .noRow
  | 0b100#3 => .ok (.umull c (bit w 20) (field w 16 4) (field w 12 4) (field w 8 4) (field w 0 4))
  | 0b101#3 => .ok (.umlal c (bit w 20) (field w 16 4) (field w 12 4) (field w 8 4) (field w 0 4))
  | 0b110#3 => .ok (.smull c (bit w 20) (field w 16 4) (field w 12 4) (field w 8 4) (field w 0 4))
  | _ => .ok (.smlal c (bit w 20) (field w 16 4) (field w 12 4) (field w 8 4) (field w 0 4))

/-- Swap and exclusive, `instr[7:4] = 1001` and `instr[24] = 1`, strict (30_encoding.md R94, R97). -/
def decodeSwap (c : Cond) (w : Word) : Except DecodeError Instr :=
  match field w 20 4 with
  | 0b0000#4 =>
    if field w 8 4 = 0#4 then .ok (.swp c (field w 16 4) (field w 12 4) (field w 0 4)) else .error .noRow
  | 0b0100#4 =>
    if field w 8 4 = 0#4 then .ok (.swpb c (field w 16 4) (field w 12 4) (field w 0 4)) else .error .noRow
  | 0b1000#4 =>
    if field w 8 4 = 0xF#4 then .ok (.strex c (field w 16 4) (field w 12 4) (field w 0 4)) else .error .noRow
  | 0b1001#4 =>
    if field w 8 4 = 0xF#4 ∧ field w 0 4 = 0xF#4 then .ok (.ldrex c (field w 16 4) (field w 12 4)) else .error .noRow
  | _ => .error .noRow

/-- W-XLSI by `L`, `S`, `H` (30_encoding.md R94); the caller has excluded `S H = 00`. -/
def decodeExtraImm (c : Cond) (w : Word) : Instr :=
  match bit w 20, field w 5 2 with
  | false, 0b01#2 => .strhImm c (bit w 24) (bit w 23) (bit w 21) (field w 16 4) (field w 12 4) (field w 8 4) (field w 0 4)
  | false, 0b10#2 => .ldrdImm c (bit w 24) (bit w 23) (bit w 21) (field w 16 4) (field w 12 4) (field w 8 4) (field w 0 4)
  | false, _ => .strdImm c (bit w 24) (bit w 23) (bit w 21) (field w 16 4) (field w 12 4) (field w 8 4) (field w 0 4)
  | true, 0b01#2 => .ldrhImm c (bit w 24) (bit w 23) (bit w 21) (field w 16 4) (field w 12 4) (field w 8 4) (field w 0 4)
  | true, 0b10#2 => .ldrsbImm c (bit w 24) (bit w 23) (bit w 21) (field w 16 4) (field w 12 4) (field w 8 4) (field w 0 4)
  | true, _ => .ldrshImm c (bit w 24) (bit w 23) (bit w 21) (field w 16 4) (field w 12 4) (field w 8 4) (field w 0 4)

/-- W-XLSR by `L`, `S`, `H` (30_encoding.md R94); the caller has excluded `S H = 00`. -/
def decodeExtraReg (c : Cond) (w : Word) : Instr :=
  match bit w 20, field w 5 2 with
  | false, 0b01#2 => .strhReg c (bit w 24) (bit w 23) (bit w 21) (field w 16 4) (field w 12 4) (field w 0 4)
  | false, 0b10#2 => .ldrdReg c (bit w 24) (bit w 23) (bit w 21) (field w 16 4) (field w 12 4) (field w 0 4)
  | false, _ => .strdReg c (bit w 24) (bit w 23) (bit w 21) (field w 16 4) (field w 12 4) (field w 0 4)
  | true, 0b01#2 => .ldrhReg c (bit w 24) (bit w 23) (bit w 21) (field w 16 4) (field w 12 4) (field w 0 4)
  | true, 0b10#2 => .ldrsbReg c (bit w 24) (bit w 23) (bit w 21) (field w 16 4) (field w 12 4) (field w 0 4)
  | true, _ => .ldrshReg c (bit w 24) (bit w 23) (bit w 21) (field w 16 4) (field w 12 4) (field w 0 4)

/-- The extra load/store space (30_encoding.md R93): `P = 0, W = 1` selects no row (R98), and the register form
needs `instr[11:8] = 0000` (R97). -/
def decodeExtra (c : Cond) (w : Word) : Except DecodeError Instr :=
  if indexingOk (bit w 24) (bit w 21) then
    if bit w 22 then .ok (decodeExtraImm c w)
    else if field w 8 4 = 0#4 then .ok (decodeExtraReg c w) else .error .noRow
  else .error .noRow

/-- Class 000 (30_encoding.md R93). -/
def decodeClass0 (c : Cond) (w : Word) : Except DecodeError Instr :=
  if bit w 4 then
    if bit w 7 then
      if field w 5 2 = 0b00#2 then
        if bit w 24 then decodeSwap c w else decodeMultiply c w
      else decodeExtra c w
    else decodeDataRsr c w
  else decodeDataReg c w

/-- W-LSI by `B` and `L`; `P = 0, W = 1` selects the translated rows (30_encoding.md R94, R108). -/
def decodeLoadStoreImm (c : Cond) (w : Word) : Instr :=
  if indexingOk (bit w 24) (bit w 21) then
    match bit w 22, bit w 20 with
    | false, false => .strImm c (bit w 24) (bit w 23) (bit w 21) (field w 16 4) (field w 12 4) (field w 0 12)
    | false, true => .ldrImm c (bit w 24) (bit w 23) (bit w 21) (field w 16 4) (field w 12 4) (field w 0 12)
    | true, false => .strbImm c (bit w 24) (bit w 23) (bit w 21) (field w 16 4) (field w 12 4) (field w 0 12)
    | true, true => .ldrbImm c (bit w 24) (bit w 23) (bit w 21) (field w 16 4) (field w 12 4) (field w 0 12)
  else
    match bit w 22, bit w 20 with
    | false, false => .strtImm c (bit w 23) (field w 16 4) (field w 12 4) (field w 0 12)
    | false, true => .ldrtImm c (bit w 23) (field w 16 4) (field w 12 4) (field w 0 12)
    | true, false => .strbtImm c (bit w 23) (field w 16 4) (field w 12 4) (field w 0 12)
    | true, true => .ldrbtImm c (bit w 23) (field w 16 4) (field w 12 4) (field w 0 12)

/-- W-LSR by `B` and `L`; `P = 0, W = 1` selects the translated rows (30_encoding.md R94, R108). -/
def decodeLoadStoreReg (c : Cond) (w : Word) : Instr :=
  if indexingOk (bit w 24) (bit w 21) then
    match bit w 22, bit w 20 with
    | false, false => .strReg c (bit w 24) (bit w 23) (bit w 21) (field w 16 4) (field w 12 4) (field w 7 5) (.ofBits (field w 5 2)) (field w 0 4)
    | false, true => .ldrReg c (bit w 24) (bit w 23) (bit w 21) (field w 16 4) (field w 12 4) (field w 7 5) (.ofBits (field w 5 2)) (field w 0 4)
    | true, false => .strbReg c (bit w 24) (bit w 23) (bit w 21) (field w 16 4) (field w 12 4) (field w 7 5) (.ofBits (field w 5 2)) (field w 0 4)
    | true, true => .ldrbReg c (bit w 24) (bit w 23) (bit w 21) (field w 16 4) (field w 12 4) (field w 7 5) (.ofBits (field w 5 2)) (field w 0 4)
  else
    match bit w 22, bit w 20 with
    | false, false => .strtReg c (bit w 23) (field w 16 4) (field w 12 4) (field w 7 5) (.ofBits (field w 5 2)) (field w 0 4)
    | false, true => .ldrtReg c (bit w 23) (field w 16 4) (field w 12 4) (field w 7 5) (.ofBits (field w 5 2)) (field w 0 4)
    | true, false => .strbtReg c (bit w 23) (field w 16 4) (field w 12 4) (field w 7 5) (.ofBits (field w 5 2)) (field w 0 4)
    | true, true => .ldrbtReg c (bit w 23) (field w 16 4) (field w 12 4) (field w 7 5) (.ofBits (field w 5 2)) (field w 0 4)

/-- The classes 100 to 111: block transfer, branch, coprocessor, software interrupt (30_encoding.md R93). -/
def decodeUpper (c : Cond) (w : Word) : Instr :=
  match field w 25 2 with
  | 0b00#2 =>
    if bit w 20 then .ldm c (bit w 24) (bit w 23) (bit w 22) (bit w 21) (field w 16 4) (field w 0 16)
    else .stm c (bit w 24) (bit w 23) (bit w 22) (bit w 21) (field w 16 4) (field w 0 16)
  | 0b01#2 => if bit w 24 then .bl c (field w 0 24) else .b c (field w 0 24)
  | 0b10#2 => .copMem c (field w 0 25)
  | _ =>
    if bit w 24 then
      if field w 0 24 = wideTrapImm then .swiTrap c else .swiOther c (field w 0 24)
    else .copReg c (field w 0 24)

/-- The wide decoder: `cond = 1111` first (30_encoding.md R92, R99), then by class (R93). -/
def decodeWide (w : Word) : Except DecodeError Instr :=
  match Cond.ofBits (field w 28 4) with
  | none => .error .conditionReserved
  | some c =>
    match field w 25 3 with
    | 0b000#3 => decodeClass0 c w
    | 0b001#3 => decodeDataImm c w
    | 0b010#3 => .ok (decodeLoadStoreImm c w)
    | 0b011#3 =>
      if bit w 4 then .ok (.media c (field w 5 20) (field w 0 4)) else .ok (decodeLoadStoreReg c w)
    | _ => .ok (decodeUpper c w)

/-! ## The compact decoder -/

/-- T-SHI and T-AS3 (30_encoding.md R100, R101). -/
def decodeCompactShiftAdd (h : Half) : Instr :=
  match field h 11 2 with
  | 0b00#2 => .cLslImm (field h 6 5) (field h 3 3) (field h 0 3)
  | 0b01#2 => .cLsrImm (field h 6 5) (field h 3 3) (field h 0 3)
  | 0b10#2 => .cAsrImm (field h 6 5) (field h 3 3) (field h 0 3)
  | _ =>
    match bit h 10, bit h 9 with
    | false, false => .cAddReg (field h 6 3) (field h 3 3) (field h 0 3)
    | false, true => .cSubReg (field h 6 3) (field h 3 3) (field h 0 3)
    | true, false => .cAddImm3 (field h 6 3) (field h 3 3) (field h 0 3)
    | true, true => .cSubImm3 (field h 6 3) (field h 3 3) (field h 0 3)

/-- T-I8 (30_encoding.md R101). -/
def decodeCompactImm8 (h : Half) : Instr :=
  match field h 11 2 with
  | 0b00#2 => .cMovImm8 (field h 8 3) (field h 0 8)
  | 0b01#2 => .cCmpImm8 (field h 8 3) (field h 0 8)
  | 0b10#2 => .cAddImm8 (field h 8 3) (field h 0 8)
  | _ => .cSubImm8 (field h 8 3) (field h 0 8)

/-- T-ALU by the opcode numbers of 30_encoding.md R102. -/
def decodeCompactAlu (h : Half) : Instr :=
  match field h 6 4 with
  | 0b0000#4 => .cAnd (field h 3 3) (field h 0 3)
  | 0b0001#4 => .cEor (field h 3 3) (field h 0 3)
  | 0b0010#4 => .cLsl (field h 3 3) (field h 0 3)
  | 0b0011#4 => .cLsr (field h 3 3) (field h 0 3)
  | 0b0100#4 => .cAsr (field h 3 3) (field h 0 3)
  | 0b0101#4 => .cAdc (field h 3 3) (field h 0 3)
  | 0b0110#4 => .cSbc (field h 3 3) (field h 0 3)
  | 0b0111#4 => .cRor (field h 3 3) (field h 0 3)
  | 0b1000#4 => .cTst (field h 3 3) (field h 0 3)
  | 0b1001#4 => .cNeg (field h 3 3) (field h 0 3)
  | 0b1010#4 => .cCmp (field h 3 3) (field h 0 3)
  | 0b1011#4 => .cCmn (field h 3 3) (field h 0 3)
  | 0b1100#4 => .cOrr (field h 3 3) (field h 0 3)
  | 0b1101#4 => .cMul (field h 3 3) (field h 0 3)
  | 0b1110#4 => .cBic (field h 3 3) (field h 0 3)
  | _ => .cMvn (field h 3 3) (field h 0 3)

/-- The 4-bit register number `h : ddd` of T-HI (30_encoding.md R101): the extension bit above the 3-bit field. -/
def highReg (ext : Bool) (low : BitVec 3) : Reg := BitVec.ofBool ext ++ low

/-- T-HI; BX and BLX need `instr[2:0] = 000` (30_encoding.md R101, 45_compact_alu.md R324). -/
def decodeCompactHigh (h : Half) : Except DecodeError Instr :=
  match field h 8 2 with
  | 0b00#2 => .ok (.cAddHi (highReg (bit h 6) (field h 3 3)) (highReg (bit h 7) (field h 0 3)))
  | 0b01#2 => .ok (.cCmpHi (highReg (bit h 6) (field h 3 3)) (highReg (bit h 7) (field h 0 3)))
  | 0b10#2 => .ok (.cMovHi (highReg (bit h 6) (field h 3 3)) (highReg (bit h 7) (field h 0 3)))
  | _ =>
    if field h 0 3 = 0#3 then
      if bit h 7 then .ok (.cBlxReg (highReg (bit h 6) (field h 3 3)))
      else .ok (.cBx (highReg (bit h 6) (field h 3 3)))
    else .error .noRow

/-- T-LSR (30_encoding.md R101). -/
def decodeCompactRegOffset (h : Half) : Instr :=
  match field h 9 3 with
  | 0b000#3 => .cStrReg (field h 6 3) (field h 3 3) (field h 0 3)
  | 0b001#3 => .cStrhReg (field h 6 3) (field h 3 3) (field h 0 3)
  | 0b010#3 => .cStrbReg (field h 6 3) (field h 3 3) (field h 0 3)
  | 0b011#3 => .cLdrsbReg (field h 6 3) (field h 3 3) (field h 0 3)
  | 0b100#3 => .cLdrReg (field h 6 3) (field h 3 3) (field h 0 3)
  | 0b101#3 => .cLdrhReg (field h 6 3) (field h 3 3) (field h 0 3)
  | 0b110#3 => .cLdrbReg (field h 6 3) (field h 3 3) (field h 0 3)
  | _ => .cLdrshReg (field h 6 3) (field h 3 3) (field h 0 3)

/-- Dispatch value 010 (30_encoding.md R100). -/
def decodeCompactGroup2 (h : Half) : Except DecodeError Instr :=
  if bit h 12 then .ok (decodeCompactRegOffset h)
  else if bit h 11 then .ok (.cLdrLit (field h 8 3) (field h 0 8))
  else if bit h 10 then decodeCompactHigh h
  else .ok (decodeCompactAlu h)

/-- T-LSI5 (30_encoding.md R101). -/
def decodeCompactImmOffset (h : Half) : Instr :=
  match bit h 12, bit h 11 with
  | false, false => .cStrImm (field h 6 5) (field h 3 3) (field h 0 3)
  | false, true => .cLdrImm (field h 6 5) (field h 3 3) (field h 0 3)
  | true, false => .cStrbImm (field h 6 5) (field h 3 3) (field h 0 3)
  | true, true => .cLdrbImm (field h 6 5) (field h 3 3) (field h 0 3)

/-- T-LSH and T-LSSP (30_encoding.md R101). -/
def decodeCompactHalfSp (h : Half) : Instr :=
  match bit h 12, bit h 11 with
  | false, false => .cStrhImm (field h 6 5) (field h 3 3) (field h 0 3)
  | false, true => .cLdrhImm (field h 6 5) (field h 3 3) (field h 0 3)
  | true, false => .cStrSp (field h 8 3) (field h 0 8)
  | true, true => .cLdrSp (field h 8 3) (field h 0 8)

/-- T-EXT (30_encoding.md R101). -/
def decodeCompactExtend (h : Half) : Instr :=
  match field h 6 2 with
  | 0b00#2 => .cSxth (field h 3 3) (field h 0 3)
  | 0b01#2 => .cSxtb (field h 3 3) (field h 0 3)
  | 0b10#2 => .cUxth (field h 3 3) (field h 0 3)
  | _ => .cUxtb (field h 3 3) (field h 0 3)

/-- T-REV (30_encoding.md R101); `oo = 10` has a row of its own (R104). -/
def decodeCompactReverse (h : Half) : Instr :=
  match field h 6 2 with
  | 0b00#2 => .cRev (field h 3 3) (field h 0 3)
  | 0b01#2 => .cRev16 (field h 3 3) (field h 0 3)
  | 0b10#2 => .cRevUnalloc (field h 3 3) (field h 0 3)
  | _ => .cRevsh (field h 3 3) (field h 0 3)

/-- T-SETEND and T-CPS, strict (30_encoding.md R101, R104). -/
def decodeCompactSetendCps (h : Half) : Except DecodeError Instr :=
  if field h 4 4 = 0b0101#4 ∧ field h 0 3 = 0#3 then .ok (.cSetend (bit h 3))
  else if field h 5 3 = 0b011#3 ∧ bit h 3 = false then .ok (.cCps (bit h 4) (bit h 2) (bit h 1) (bit h 0))
  else .error .noRow

/-- The miscellaneous group `1011`, by `instr[11:8]`; what is left out is unallocated (30_encoding.md R104). -/
def decodeCompactMisc (h : Half) : Except DecodeError Instr :=
  match field h 8 4 with
  | 0x0#4 => if bit h 7 then .ok (.cSubSpImm (field h 0 7)) else .ok (.cAddSpImm (field h 0 7))
  | 0x2#4 => .ok (decodeCompactExtend h)
  | 0x4#4 => .ok (.cPush false (field h 0 8))
  | 0x5#4 => .ok (.cPush true (field h 0 8))
  | 0x6#4 => decodeCompactSetendCps h
  | 0xA#4 => .ok (decodeCompactReverse h)
  | 0xC#4 => .ok (.cPop false (field h 0 8))
  | 0xD#4 => .ok (.cPop true (field h 0 8))
  | 0xE#4 => .ok (.cBkpt (field h 0 8))
  | _ => .error .noRow

/-- T-LDM, T-BCC and T-SWI: dispatch value 110 (30_encoding.md R100, 47_compact_misc_branch.md R396). -/
def decodeCompactGroup6 (h : Half) : Instr :=
  if bit h 12 then
    match field h 8 4 with
    | 0xF#4 => if field h 0 8 = compactTrapImm then .cSwiTrap else .cSwiOther (field h 0 8)
    | b =>
      match Cond.ofBits b with
      | some .al => .cBcond1110 (field h 0 8)
      | some c => .cBcond c (field h 0 8)
      | none => .cSwiOther (field h 0 8)
  else if bit h 11 then .cLdmia (field h 8 3) (field h 0 8)
  else .cStmia (field h 8 3) (field h 0 8)

/-- T-B, T-BLXS, T-BLP, T-BLS: dispatch value 111 (30_encoding.md R100). -/
def decodeCompactGroup7 (h : Half) : Instr :=
  match field h 11 2 with
  | 0b00#2 => .cB (field h 0 11)
  | 0b01#2 => .cBlxSuffix (field h 0 11)
  | 0b10#2 => .cBlPrefix (field h 0 11)
  | _ => .cBlSuffix (field h 0 11)

/-- The compact decoder, by the three dispatch bits (30_encoding.md R100). -/
def decodeCompact (h : Half) : Except DecodeError Instr :=
  match field h 13 3 with
  | 0b000#3 => .ok (decodeCompactShiftAdd h)
  | 0b001#3 => .ok (decodeCompactImm8 h)
  | 0b010#3 => decodeCompactGroup2 h
  | 0b011#3 => .ok (decodeCompactImmOffset h)
  | 0b100#3 => .ok (decodeCompactHalfSp h)
  | 0b101#3 =>
    if bit h 12 then decodeCompactMisc h
    else if bit h 11 then .ok (.cAddSp (field h 8 3) (field h 0 8))
    else .ok (.cAddPc (field h 8 3) (field h 0 8))
  | 0b110#3 => .ok (decodeCompactGroup6 h)
  | _ => .ok (decodeCompactGroup7 h)

/-- The decoder of both modes: the mode fixes the length, never the bits (30_encoding.md R91). -/
def decode : Code → Except DecodeError Instr
  | .wide w => decodeWide w
  | .compact h => decodeCompact h

/-! ## Byte order, and the decoder on the opcode table's numbering -/

/-- The little-endian value of two bytes, the one at the lower address first (20_memory.md R63). -/
def halfOfBytes (b0 b1 : Byte) : Half := b1 ++ b0

/-- The little-endian value of four bytes, the one at the lowest address first (20_memory.md R63). -/
def wordOfBytes (b0 b1 b2 b3 : Byte) : Word := b3 ++ b2 ++ b1 ++ b0

/-- Byte `i` of a word as it lies in memory, `i = 0` at the lowest address (20_memory.md R63). -/
def byteOfWord (w : Word) (i : Nat) : Byte := w.extractLsb' (8 * i) 8

/-- The bits of an instruction as memory holds them, read back in the byte order of a mode (30_encoding.md R91). -/
def codeOfStored (m : Mode) (w : Word) : Code :=
  match m with
  | .wide => .wide (wordOfBytes (byteOfWord w 0) (byteOfWord w 1) (byteOfWord w 2) (byteOfWord w 3))
  | .compact => .compact (halfOfBytes (byteOfWord w 0) (byteOfWord w 1))

/-- The mode whose instructions have `nbits` bits (30_encoding.md R91). -/
def modeOfLength (nbits : Nat) : Mode := if nbits ≤ 16 then .compact else .wide

/-- What the decoder reads from an instruction of the opcode table: 16 bits compact, 32 bits wide. -/
def decodeTableWord (nbits w : Nat) : Option Instr :=
  match decode (codeOfStored (modeOfLength nbits) (BitVec.ofNat 32 w)) with
  | .ok i => some i
  | .error _ => none

/-! ## The encoder -/

/-- Format W-DPI (30_encoding.md R94). -/
def encDataImm (c : Cond) (op : BitVec 4) (sf : Bool) (rn rd : Reg) (rot : BitVec 4) (imm : BitVec 8) : Code :=
  .wide (c.toBits ++ 0b001#3 ++ op ++ BitVec.ofBool sf ++ rn ++ rd ++ rot ++ imm)

/-- Format W-DPIS (30_encoding.md R94). -/
def encDataReg (c : Cond) (op : BitVec 4) (sf : Bool) (rn rd : Reg) (amount : BitVec 5) (sh : ShiftType) (rm : Reg) :
    Code :=
  .wide (c.toBits ++ 0b000#3 ++ op ++ BitVec.ofBool sf ++ rn ++ rd ++ amount ++ sh.toBits ++ 0b0#1 ++ rm)

/-- Format W-DPRS (30_encoding.md R94). -/
def encDataRsr (c : Cond) (op : BitVec 4) (sf : Bool) (rn rd rs : Reg) (sh : ShiftType) (rm : Reg) : Code :=
  .wide (c.toBits ++ 0b000#3 ++ op ++ BitVec.ofBool sf ++ rn ++ rd ++ rs ++ 0b0#1 ++ sh.toBits ++ 0b1#1 ++ rm)

/-- The shape of class 000 with nibbles in `instr[19:0]`: miscellaneous, multiply, swap, exclusive
(30_encoding.md R94). -/
def encNibbles (c : Cond) (top : BitVec 8) (a b d low m : BitVec 4) : Code :=
  .wide (c.toBits ++ top ++ a ++ b ++ d ++ low ++ m)

/-- Format W-DSPMUL (30_encoding.md R94). -/
def encHalfMul (c : Cond) (oo : BitVec 2) (a b rs : BitVec 4) (y x : Bool) (rm : Reg) : Code :=
  .wide (c.toBits ++ 0b00010#5 ++ oo ++ 0b0#1 ++ a ++ b ++ rs ++ 0b1#1 ++ BitVec.ofBool y ++ BitVec.ofBool x ++
    0b0#1 ++ rm)

/-- Formats W-MUL and W-MULL (30_encoding.md R94): `kind` is `instr[23:21]`. -/
def encMultiply (c : Cond) (kind : BitVec 3) (sf : Bool) (a b rs rm : BitVec 4) : Code :=
  .wide (c.toBits ++ 0b0000#4 ++ kind ++ BitVec.ofBool sf ++ a ++ b ++ rs ++ 0b1001#4 ++ rm)

/-- Formats W-XLSI (`i` = 1) and W-XLSR (`i` = 0) (30_encoding.md R94). -/
def encExtra (c : Cond) (p u : Bool) (i : BitVec 1) (w : Bool) (l : BitVec 1) (rn rd h : BitVec 4) (sh : BitVec 2)
    (m : BitVec 4) : Code :=
  .wide (c.toBits ++ 0b000#3 ++ BitVec.ofBool p ++ BitVec.ofBool u ++ i ++ BitVec.ofBool w ++ l ++ rn ++ rd ++ h ++
    0b1#1 ++ sh ++ 0b1#1 ++ m)

/-- Format W-LSI (30_encoding.md R94). -/
def encLoadStoreImm (c : Cond) (p u : Bool) (b : BitVec 1) (w : Bool) (l : BitVec 1) (rn rd : Reg)
    (imm12 : BitVec 12) : Code :=
  .wide (c.toBits ++ 0b010#3 ++ BitVec.ofBool p ++ BitVec.ofBool u ++ b ++ BitVec.ofBool w ++ l ++ rn ++ rd ++ imm12)

/-- Format W-LSR (30_encoding.md R94). -/
def encLoadStoreReg (c : Cond) (p u : Bool) (b : BitVec 1) (w : Bool) (l : BitVec 1) (rn rd : Reg)
    (amount : BitVec 5) (sh : ShiftType) (rm : Reg) : Code :=
  .wide (c.toBits ++ 0b011#3 ++ BitVec.ofBool p ++ BitVec.ofBool u ++ b ++ BitVec.ofBool w ++ l ++ rn ++ rd ++
    amount ++ sh.toBits ++ 0b0#1 ++ rm)

/-- Format W-LDM (30_encoding.md R94). -/
def encBlock (c : Cond) (p u sb w : Bool) (l : BitVec 1) (rn : Reg) (list : BitVec 16) : Code :=
  .wide (c.toBits ++ 0b100#3 ++ BitVec.ofBool p ++ BitVec.ofBool u ++ BitVec.ofBool sb ++ BitVec.ofBool w ++ l ++ rn ++
    list)

/-- A compact format of a 7-bit opcode and three 3-bit fields: T-AS3, T-LSR (30_encoding.md R101). -/
def encCompact3 (op : BitVec 7) (m n d : BitVec 3) : Code := .compact (op ++ m ++ n ++ d)

/-- A compact format of a 5-bit opcode, a 5-bit immediate and two registers: T-SHI, T-LSI5, T-LSH
(30_encoding.md R101). -/
def encCompactImm5 (op : BitVec 5) (imm5 : BitVec 5) (n d : BitVec 3) : Code := .compact (op ++ imm5 ++ n ++ d)

/-- A compact format of a 5-bit opcode, a register and an 8-bit field: T-I8, T-LIT, T-LSSP, T-ADR, T-LDM
(30_encoding.md R101). -/
def encCompactImm8 (op : BitVec 5) (d : BitVec 3) (imm8 : BitVec 8) : Code := .compact (op ++ d ++ imm8)

/-- A compact format of a 10-bit opcode and two registers: T-ALU, T-EXT, T-REV (30_encoding.md R101). -/
def encCompact2 (op : BitVec 10) (m d : BitVec 3) : Code := .compact (op ++ m ++ d)

/-- A compact format of a 5-bit opcode and an 11-bit immediate: T-B, T-BLXS, T-BLP, T-BLS (30_encoding.md R101). -/
def encCompactImm11 (op : BitVec 5) (imm11 : BitVec 11) : Code := .compact (op ++ imm11)

/-- Format T-HI: `rd` gives `H1` and `instr[2:0]`, `rm` gives `H2` and `instr[5:3]` (30_encoding.md R101). -/
def encCompactHigh (oo : BitVec 2) (rm rd : Reg) : Code :=
  .compact (0b010001#6 ++ oo ++ field rd 3 1 ++ field rm 3 1 ++ field rm 0 3 ++ field rd 0 3)

/-- The words of an instruction, from the formats of 30_encoding.md R94 and R101. -/
def encode : Instr → Code
  | .andImm c sf rn rd rot imm => encDataImm c 0b0000#4 sf rn rd rot imm
  | .andReg c sf rn rd amount sh rm => encDataReg c 0b0000#4 sf rn rd amount sh rm
  | .andRsr c sf rn rd rs sh rm => encDataRsr c 0b0000#4 sf rn rd rs sh rm
  | .eorImm c sf rn rd rot imm => encDataImm c 0b0001#4 sf rn rd rot imm
  | .eorReg c sf rn rd amount sh rm => encDataReg c 0b0001#4 sf rn rd amount sh rm
  | .eorRsr c sf rn rd rs sh rm => encDataRsr c 0b0001#4 sf rn rd rs sh rm
  | .subImm c sf rn rd rot imm => encDataImm c 0b0010#4 sf rn rd rot imm
  | .subReg c sf rn rd amount sh rm => encDataReg c 0b0010#4 sf rn rd amount sh rm
  | .subRsr c sf rn rd rs sh rm => encDataRsr c 0b0010#4 sf rn rd rs sh rm
  | .rsbImm c sf rn rd rot imm => encDataImm c 0b0011#4 sf rn rd rot imm
  | .rsbReg c sf rn rd amount sh rm => encDataReg c 0b0011#4 sf rn rd amount sh rm
  | .rsbRsr c sf rn rd rs sh rm => encDataRsr c 0b0011#4 sf rn rd rs sh rm
  | .addImm c sf rn rd rot imm => encDataImm c 0b0100#4 sf rn rd rot imm
  | .addReg c sf rn rd amount sh rm => encDataReg c 0b0100#4 sf rn rd amount sh rm
  | .addRsr c sf rn rd rs sh rm => encDataRsr c 0b0100#4 sf rn rd rs sh rm
  | .adcImm c sf rn rd rot imm => encDataImm c 0b0101#4 sf rn rd rot imm
  | .adcReg c sf rn rd amount sh rm => encDataReg c 0b0101#4 sf rn rd amount sh rm
  | .adcRsr c sf rn rd rs sh rm => encDataRsr c 0b0101#4 sf rn rd rs sh rm
  | .sbcImm c sf rn rd rot imm => encDataImm c 0b0110#4 sf rn rd rot imm
  | .sbcReg c sf rn rd amount sh rm => encDataReg c 0b0110#4 sf rn rd amount sh rm
  | .sbcRsr c sf rn rd rs sh rm => encDataRsr c 0b0110#4 sf rn rd rs sh rm
  | .rscImm c sf rn rd rot imm => encDataImm c 0b0111#4 sf rn rd rot imm
  | .rscReg c sf rn rd amount sh rm => encDataReg c 0b0111#4 sf rn rd amount sh rm
  | .rscRsr c sf rn rd rs sh rm => encDataRsr c 0b0111#4 sf rn rd rs sh rm
  | .tstImm c rn rd rot imm => encDataImm c 0b1000#4 true rn rd rot imm
  | .tstReg c rn rd amount sh rm => encDataReg c 0b1000#4 true rn rd amount sh rm
  | .tstRsr c rn rd rs sh rm => encDataRsr c 0b1000#4 true rn rd rs sh rm
  | .teqImm c rn rd rot imm => encDataImm c 0b1001#4 true rn rd rot imm
  | .teqReg c rn rd amount sh rm => encDataReg c 0b1001#4 true rn rd amount sh rm
  | .teqRsr c rn rd rs sh rm => encDataRsr c 0b1001#4 true rn rd rs sh rm
  | .cmpImm c rn rd rot imm => encDataImm c 0b1010#4 true rn rd rot imm
  | .cmpReg c rn rd amount sh rm => encDataReg c 0b1010#4 true rn rd amount sh rm
  | .cmpRsr c rn rd rs sh rm => encDataRsr c 0b1010#4 true rn rd rs sh rm
  | .cmnImm c rn rd rot imm => encDataImm c 0b1011#4 true rn rd rot imm
  | .cmnReg c rn rd amount sh rm => encDataReg c 0b1011#4 true rn rd amount sh rm
  | .cmnRsr c rn rd rs sh rm => encDataRsr c 0b1011#4 true rn rd rs sh rm
  | .orrImm c sf rn rd rot imm => encDataImm c 0b1100#4 sf rn rd rot imm
  | .orrReg c sf rn rd amount sh rm => encDataReg c 0b1100#4 sf rn rd amount sh rm
  | .orrRsr c sf rn rd rs sh rm => encDataRsr c 0b1100#4 sf rn rd rs sh rm
  | .movImm c sf rn rd rot imm => encDataImm c 0b1101#4 sf rn rd rot imm
  | .movReg c sf rn rd amount sh rm => encDataReg c 0b1101#4 sf rn rd amount sh rm
  | .movRsr c sf rn rd rs sh rm => encDataRsr c 0b1101#4 sf rn rd rs sh rm
  | .bicImm c sf rn rd rot imm => encDataImm c 0b1110#4 sf rn rd rot imm
  | .bicReg c sf rn rd amount sh rm => encDataReg c 0b1110#4 sf rn rd amount sh rm
  | .bicRsr c sf rn rd rs sh rm => encDataRsr c 0b1110#4 sf rn rd rs sh rm
  | .mvnImm c sf rn rd rot imm => encDataImm c 0b1111#4 sf rn rd rot imm
  | .mvnReg c sf rn rd amount sh rm => encDataReg c 0b1111#4 sf rn rd amount sh rm
  | .mvnRsr c sf rn rd rs sh rm => encDataRsr c 0b1111#4 sf rn rd rs sh rm
  | .mrs c saved rd => .wide (c.toBits ++ 0b00010#5 ++ BitVec.ofBool saved ++ 0b00#2 ++ 0b1111#4 ++ rd ++ 0#12)
  | .msrReg c saved mask rm => .wide (c.toBits ++ 0b00010#5 ++ BitVec.ofBool saved ++ 0b10#2 ++ mask ++ 0b1111#4 ++ 0#8 ++ rm)
  | .msrImm c saved mask rot imm => .wide (c.toBits ++ 0b00110#5 ++ BitVec.ofBool saved ++ 0b10#2 ++ mask ++ 0b1111#4 ++ rot ++ imm)
  | .bx c rm => encNibbles c 0b00010010#8 0xF#4 0xF#4 0xF#4 0b0001#4 rm
  | .bxj c rm => encNibbles c 0b00010010#8 0xF#4 0xF#4 0xF#4 0b0010#4 rm
  | .blxReg c rm => encNibbles c 0b00010010#8 0xF#4 0xF#4 0xF#4 0b0011#4 rm
  | .clz c rd rm => encNibbles c 0b00010110#8 0xF#4 rd 0xF#4 0b0001#4 rm
  | .qadd c rn rd rm => encNibbles c 0b00010000#8 rn rd 0x0#4 0b0101#4 rm
  | .qsub c rn rd rm => encNibbles c 0b00010010#8 rn rd 0x0#4 0b0101#4 rm
  | .qdadd c rn rd rm => encNibbles c 0b00010100#8 rn rd 0x0#4 0b0101#4 rm
  | .qdsub c rn rd rm => encNibbles c 0b00010110#8 rn rd 0x0#4 0b0101#4 rm
  | .bkpt c imm12 imm4 => .wide (c.toBits ++ 0b00010010#8 ++ imm12 ++ 0b0111#4 ++ imm4)
  | .smlaXY c rd rn rs y x rm => encHalfMul c 0b00#2 rd rn rs y x rm
  | .smlawSmulw c rd rn rs y x rm => encHalfMul c 0b01#2 rd rn rs y x rm
  | .smlalXY c rdHi rdLo rs y x rm => encHalfMul c 0b10#2 rdHi rdLo rs y x rm
  | .smulXY c rd ignored rs y x rm => encHalfMul c 0b11#2 rd ignored rs y x rm
  | .mul c sf rd rs rm => encMultiply c 0b000#3 sf rd 0#4 rs rm
  | .mla c sf rd rn rs rm => encMultiply c 0b001#3 sf rd rn rs rm
  | .umaal c rdHi rdLo rs rm => encMultiply c 0b010#3 false rdHi rdLo rs rm
  | .umull c sf rdHi rdLo rs rm => encMultiply c 0b100#3 sf rdHi rdLo rs rm
  | .umlal c sf rdHi rdLo rs rm => encMultiply c 0b101#3 sf rdHi rdLo rs rm
  | .smull c sf rdHi rdLo rs rm => encMultiply c 0b110#3 sf rdHi rdLo rs rm
  | .smlal c sf rdHi rdLo rs rm => encMultiply c 0b111#3 sf rdHi rdLo rs rm
  | .swp c rn rd rm => encNibbles c 0b00010000#8 rn rd 0x0#4 0b1001#4 rm
  | .swpb c rn rd rm => encNibbles c 0b00010100#8 rn rd 0x0#4 0b1001#4 rm
  | .strex c rn rd rm => encNibbles c 0b00011000#8 rn rd 0xF#4 0b1001#4 rm
  | .ldrex c rn rd => encNibbles c 0b00011001#8 rn rd 0xF#4 0b1001#4 0xF#4
  | .strhImm c p u w rn rd immH immL => encExtra c p u 0b1#1 w 0b0#1 rn rd immH 0b01#2 immL
  | .strhReg c p u w rn rd rm => encExtra c p u 0b0#1 w 0b0#1 rn rd 0#4 0b01#2 rm
  | .ldrdImm c p u w rn rd immH immL => encExtra c p u 0b1#1 w 0b0#1 rn rd immH 0b10#2 immL
  | .ldrdReg c p u w rn rd rm => encExtra c p u 0b0#1 w 0b0#1 rn rd 0#4 0b10#2 rm
  | .strdImm c p u w rn rd immH immL => encExtra c p u 0b1#1 w 0b0#1 rn rd immH 0b11#2 immL
  | .strdReg c p u w rn rd rm => encExtra c p u 0b0#1 w 0b0#1 rn rd 0#4 0b11#2 rm
  | .ldrhImm c p u w rn rd immH immL => encExtra c p u 0b1#1 w 0b1#1 rn rd immH 0b01#2 immL
  | .ldrhReg c p u w rn rd rm => encExtra c p u 0b0#1 w 0b1#1 rn rd 0#4 0b01#2 rm
  | .ldrsbImm c p u w rn rd immH immL => encExtra c p u 0b1#1 w 0b1#1 rn rd immH 0b10#2 immL
  | .ldrsbReg c p u w rn rd rm => encExtra c p u 0b0#1 w 0b1#1 rn rd 0#4 0b10#2 rm
  | .ldrshImm c p u w rn rd immH immL => encExtra c p u 0b1#1 w 0b1#1 rn rd immH 0b11#2 immL
  | .ldrshReg c p u w rn rd rm => encExtra c p u 0b0#1 w 0b1#1 rn rd 0#4 0b11#2 rm
  | .strImm c p u w rn rd imm12 => encLoadStoreImm c p u 0b0#1 w 0b0#1 rn rd imm12
  | .strReg c p u w rn rd amount sh rm => encLoadStoreReg c p u 0b0#1 w 0b0#1 rn rd amount sh rm
  | .strtImm c u rn rd imm12 => encLoadStoreImm c false u 0b0#1 true 0b0#1 rn rd imm12
  | .strtReg c u rn rd amount sh rm => encLoadStoreReg c false u 0b0#1 true 0b0#1 rn rd amount sh rm
  | .ldrImm c p u w rn rd imm12 => encLoadStoreImm c p u 0b0#1 w 0b1#1 rn rd imm12
  | .ldrReg c p u w rn rd amount sh rm => encLoadStoreReg c p u 0b0#1 w 0b1#1 rn rd amount sh rm
  | .ldrtImm c u rn rd imm12 => encLoadStoreImm c false u 0b0#1 true 0b1#1 rn rd imm12
  | .ldrtReg c u rn rd amount sh rm => encLoadStoreReg c false u 0b0#1 true 0b1#1 rn rd amount sh rm
  | .strbImm c p u w rn rd imm12 => encLoadStoreImm c p u 0b1#1 w 0b0#1 rn rd imm12
  | .strbReg c p u w rn rd amount sh rm => encLoadStoreReg c p u 0b1#1 w 0b0#1 rn rd amount sh rm
  | .strbtImm c u rn rd imm12 => encLoadStoreImm c false u 0b1#1 true 0b0#1 rn rd imm12
  | .strbtReg c u rn rd amount sh rm => encLoadStoreReg c false u 0b1#1 true 0b0#1 rn rd amount sh rm
  | .ldrbImm c p u w rn rd imm12 => encLoadStoreImm c p u 0b1#1 w 0b1#1 rn rd imm12
  | .ldrbReg c p u w rn rd amount sh rm => encLoadStoreReg c p u 0b1#1 w 0b1#1 rn rd amount sh rm
  | .ldrbtImm c u rn rd imm12 => encLoadStoreImm c false u 0b1#1 true 0b1#1 rn rd imm12
  | .ldrbtReg c u rn rd amount sh rm => encLoadStoreReg c false u 0b1#1 true 0b1#1 rn rd amount sh rm
  | .media c hi lo => .wide (c.toBits ++ 0b011#3 ++ hi ++ 0b1#1 ++ lo)
  | .stm c p u sb w rn list => encBlock c p u sb w 0b0#1 rn list
  | .ldm c p u sb w rn list => encBlock c p u sb w 0b1#1 rn list
  | .b c imm24 => .wide (c.toBits ++ 0b1010#4 ++ imm24)
  | .bl c imm24 => .wide (c.toBits ++ 0b1011#4 ++ imm24)
  | .copMem c bits => .wide (c.toBits ++ 0b110#3 ++ bits)
  | .copReg c bits => .wide (c.toBits ++ 0b1110#4 ++ bits)
  | .swiTrap c => .wide (c.toBits ++ 0b1111#4 ++ wideTrapImm)
  | .swiOther c imm24 => .wide (c.toBits ++ 0b1111#4 ++ imm24)
  | .cLslImm imm5 rm rd => encCompactImm5 0b00000#5 imm5 rm rd
  | .cLsrImm imm5 rm rd => encCompactImm5 0b00001#5 imm5 rm rd
  | .cAsrImm imm5 rm rd => encCompactImm5 0b00010#5 imm5 rm rd
  | .cAddReg rm rn rd => encCompact3 0b0001100#7 rm rn rd
  | .cSubReg rm rn rd => encCompact3 0b0001101#7 rm rn rd
  | .cAddImm3 imm3 rn rd => encCompact3 0b0001110#7 imm3 rn rd
  | .cSubImm3 imm3 rn rd => encCompact3 0b0001111#7 imm3 rn rd
  | .cMovImm8 rd imm8 => encCompactImm8 0b00100#5 rd imm8
  | .cCmpImm8 rd imm8 => encCompactImm8 0b00101#5 rd imm8
  | .cAddImm8 rd imm8 => encCompactImm8 0b00110#5 rd imm8
  | .cSubImm8 rd imm8 => encCompactImm8 0b00111#5 rd imm8
  | .cAnd rm rd => encCompact2 0b0100000000#10 rm rd
  | .cEor rm rd => encCompact2 0b0100000001#10 rm rd
  | .cLsl rm rd => encCompact2 0b0100000010#10 rm rd
  | .cLsr rm rd => encCompact2 0b0100000011#10 rm rd
  | .cAsr rm rd => encCompact2 0b0100000100#10 rm rd
  | .cAdc rm rd => encCompact2 0b0100000101#10 rm rd
  | .cSbc rm rd => encCompact2 0b0100000110#10 rm rd
  | .cRor rm rd => encCompact2 0b0100000111#10 rm rd
  | .cTst rm rd => encCompact2 0b0100001000#10 rm rd
  | .cNeg rm rd => encCompact2 0b0100001001#10 rm rd
  | .cCmp rm rd => encCompact2 0b0100001010#10 rm rd
  | .cCmn rm rd => encCompact2 0b0100001011#10 rm rd
  | .cOrr rm rd => encCompact2 0b0100001100#10 rm rd
  | .cMul rm rd => encCompact2 0b0100001101#10 rm rd
  | .cBic rm rd => encCompact2 0b0100001110#10 rm rd
  | .cMvn rm rd => encCompact2 0b0100001111#10 rm rd
  | .cAddHi rm rd => encCompactHigh 0b00#2 rm rd
  | .cCmpHi rm rd => encCompactHigh 0b01#2 rm rd
  | .cMovHi rm rd => encCompactHigh 0b10#2 rm rd
  | .cBx rm => .compact (0b010001110#9 ++ rm ++ 0b000#3)
  | .cBlxReg rm => .compact (0b010001111#9 ++ rm ++ 0b000#3)
  | .cLdrLit rd imm8 => encCompactImm8 0b01001#5 rd imm8
  | .cStrReg rm rn rd => encCompact3 0b0101000#7 rm rn rd
  | .cStrhReg rm rn rd => encCompact3 0b0101001#7 rm rn rd
  | .cStrbReg rm rn rd => encCompact3 0b0101010#7 rm rn rd
  | .cLdrsbReg rm rn rd => encCompact3 0b0101011#7 rm rn rd
  | .cLdrReg rm rn rd => encCompact3 0b0101100#7 rm rn rd
  | .cLdrhReg rm rn rd => encCompact3 0b0101101#7 rm rn rd
  | .cLdrbReg rm rn rd => encCompact3 0b0101110#7 rm rn rd
  | .cLdrshReg rm rn rd => encCompact3 0b0101111#7 rm rn rd
  | .cStrImm imm5 rn rd => encCompactImm5 0b01100#5 imm5 rn rd
  | .cLdrImm imm5 rn rd => encCompactImm5 0b01101#5 imm5 rn rd
  | .cStrbImm imm5 rn rd => encCompactImm5 0b01110#5 imm5 rn rd
  | .cLdrbImm imm5 rn rd => encCompactImm5 0b01111#5 imm5 rn rd
  | .cStrhImm imm5 rn rd => encCompactImm5 0b10000#5 imm5 rn rd
  | .cLdrhImm imm5 rn rd => encCompactImm5 0b10001#5 imm5 rn rd
  | .cStrSp rd imm8 => encCompactImm8 0b10010#5 rd imm8
  | .cLdrSp rd imm8 => encCompactImm8 0b10011#5 rd imm8
  | .cAddPc rd imm8 => encCompactImm8 0b10100#5 rd imm8
  | .cAddSp rd imm8 => encCompactImm8 0b10101#5 rd imm8
  | .cAddSpImm imm7 => .compact (0b101100000#9 ++ imm7)
  | .cSubSpImm imm7 => .compact (0b101100001#9 ++ imm7)
  | .cSxth rm rd => encCompact2 0b1011001000#10 rm rd
  | .cSxtb rm rd => encCompact2 0b1011001001#10 rm rd
  | .cUxth rm rd => encCompact2 0b1011001010#10 rm rd
  | .cUxtb rm rd => encCompact2 0b1011001011#10 rm rd
  | .cPush lr list => .compact (0b1011010#7 ++ BitVec.ofBool lr ++ list)
  | .cPop pc list => .compact (0b1011110#7 ++ BitVec.ofBool pc ++ list)
  | .cSetend e => .compact (0b101101100101#12 ++ BitVec.ofBool e ++ 0b000#3)
  | .cCps imod a i f => .compact (0b10110110011#11 ++ BitVec.ofBool imod ++ 0b0#1 ++ BitVec.ofBool a ++ BitVec.ofBool i ++ BitVec.ofBool f)
  | .cRev rm rd => encCompact2 0b1011101000#10 rm rd
  | .cRev16 rm rd => encCompact2 0b1011101001#10 rm rd
  | .cRevUnalloc rm rd => encCompact2 0b1011101010#10 rm rd
  | .cRevsh rm rd => encCompact2 0b1011101011#10 rm rd
  | .cBkpt imm8 => .compact (0b10111110#8 ++ imm8)
  | .cStmia rn list => encCompactImm8 0b11000#5 rn list
  | .cLdmia rn list => encCompactImm8 0b11001#5 rn list
  | .cBcond c imm8 => .compact (0b1101#4 ++ c.toBits ++ imm8)
  | .cBcond1110 imm8 => .compact (0b11011110#8 ++ imm8)
  | .cSwiTrap => .compact (0b11011111#8 ++ compactTrapImm)
  | .cSwiOther imm8 => .compact (0b11011111#8 ++ imm8)
  | .cB imm11 => encCompactImm11 0b11100#5 imm11
  | .cBlxSuffix imm11 => encCompactImm11 0b11101#5 imm11
  | .cBlPrefix imm11 => encCompactImm11 0b11110#5 imm11
  | .cBlSuffix imm11 => encCompactImm11 0b11111#5 imm11

end Sys2Proof
end

