-- ==== Sys2Proof/Machine/Memory.lean ====
section
/-! DEFINITION. The bytes of the 32-bit address space (20_memory.md R50, R55) as a list of cells in one canonical
form, and the little-endian values of one, two and four bytes (R63). Checks are not made here: see Machine/Ops. -/

namespace Sys2Proof.Machine

/-- The bytes memory lists: addresses strictly rising, no byte equal to what an unlisted address reads as
(`memWf`). -/
abbrev Memory := List Host.Cell

/-- What an address with no cell reads as: 0. The spec states it for bss (20_memory.md R56); for the heap and the
stack, whose initial bytes it leaves open (`MEM_INIT`), it is a DESIGN CHOICE, log entry 6. -/
def unlistedByte : Byte := 0#8

/-- The byte at an address. -/
def memGet : Memory → Nat → Byte
  | [], _ => unlistedByte
  | (b, v) :: rest, a => if a = b then v else memGet rest a

/-- Memory without any cell for an address, so that it reads as unlisted. -/
def memErase (m : Memory) (a : Nat) : Memory := m.filter fun cell => cell.1 != a

/-- Memory with the cell of an address set, at its place in the rising order. -/
def memInsert : Memory → Nat → Byte → Memory
  | [], a, v => [(a, v)]
  | (b, w) :: rest, a, v =>
    if a < b then (a, v) :: (b, w) :: rest
    else if a = b then (a, v) :: rest
    else (b, w) :: memInsert rest a v

/-- Write one byte, keeping the canonical form. -/
def memPut (m : Memory) (a : Nat) (v : Byte) : Memory :=
  if v = unlistedByte then memErase m a else memInsert m a v

/-- The canonical form: addresses below 2^32, strictly rising, and no cell equal to an unlisted byte. -/
def memWf : Memory → Bool
  | [] => true
  | (a, v) :: rest =>
    decide (a < 2 ^ 32) && v != unlistedByte && rest.all (fun cell => decide (a < cell.1)) && memWf rest

/-- `MemRead(a, n)` without its checks (20_memory.md R63): the little-endian value, zero-extended to 32 bits. -/
def memValue (m : Memory) (a : Nat) : Width → Word
  | .byte => (memGet m a).setWidth 32
  | .half => (halfOfBytes (memGet m a) (memGet m (a + 1))).setWidth 32
  | .word => wordOfBytes (memGet m a) (memGet m (a + 1)) (memGet m (a + 2)) (memGet m (a + 3))

/-- `MemWrite(a, n, v)` without its checks (20_memory.md R58, R63): the low `8n` bits of `v`, little-endian. -/
def memStore (m : Memory) (a : Nat) (v : Word) : Width → Memory
  | .byte => memPut m a (byteOfWord v 0)
  | .half => memPut (memPut m a (byteOfWord v 0)) (a + 1) (byteOfWord v 1)
  | .word =>
    memPut (memPut (memPut (memPut m a (byteOfWord v 0)) (a + 1) (byteOfWord v 1)) (a + 2) (byteOfWord v 2)) (a + 3)
      (byteOfWord v 3)

end Sys2Proof.Machine
end

