-- ==== Sys2Proof/Machine/State.lean ====
section
/-! DEFINITION. The state of the machine (10_state.md), the reasons a step can stop, and the state after reset
(10_state.md R35, 70_reset_and_hazards.md R480). INVENTORY.md lists every field with its rule. -/

namespace Sys2Proof.Machine

/-- The five kinds of fault with their detail (60_exceptions.md R440, R442). -/
inductive FaultKind where
  /-- A pattern with no defined behaviour in this design: the rows with outcome `unimplemented`, MRS with R = 1, a
  compare or a flag-setting data-processing instruction with Rd = 15. -/
  | unimplementedInstruction (iaddr instr : Word)
  /-- A word that selects no row, wide `cond = 1111`, the two compact rows with outcome `undefined`. -/
  | undefinedInstruction (iaddr instr : Word)
  /-- The address is in no segment, a fetch address is not in code, or the access runs past its segment. -/
  | segmentFault (addr : Word)
  /-- A misaligned fetch or data access. -/
  | alignmentFault (addr : Word)
  /-- A mode switch in a direction the design does not support. -/
  | modeSwitchUnsupported (iaddr instr target : Word)
deriving DecidableEq, Repr

/-- The run state (10_state.md R32). Steps are taken only in `running`; the others are absorbing. -/
inductive RunState where
  | running
  | terminated
  | faulted (kind : FaultKind)
  | refused (iaddr instr : Word)
deriving DecidableEq, Repr

/-- Everything the spec gives the machine to hold, in the single-file view of 10_state.md R22, and two fields of the
model's own (`shim`, `shimCalls`). -/
structure State where
  /-- `x[0]` to `x[15]` of the active engine (R20, R22); `x[15]` is the stored program counter (R24). -/
  regs : Vector Word 16
  /-- The status word of the active engine (R26, R27). -/
  status : Word
  /-- The mode selector (R21). -/
  mode : Mode
  /-- The current-instruction register (R31); a compact half-word is zero-extended. -/
  instr : Word
  /-- The address of the instruction in execution (R31, R35). -/
  iaddr : Word
  /-- The run state (R32). -/
  run : RunState
  /-- The Loader's segment table (20_memory.md R50). -/
  segs : SegmentTable
  /-- The constants of the design (00_scope.md R6). -/
  params : Params
  /-- The bytes of the six segments (20_memory.md R50, R55). -/
  mem : Memory
  /-- The model's own: the Syscall Shim's coming replies, one per trap (log entry 8). -/
  shim : List ShimReply
  /-- The model's own: how many traps have been taken, the argument of the free value (log entry 8). -/
  shimCalls : Nat
deriving DecidableEq, Repr

/-! ## Accessors and updates -/

/-- The stored value of a register. -/
def State.reg (s : State) (r : Reg) : Word := s.regs[r.toNat]

/-- Write a register. -/
def State.setReg (s : State) (r : Reg) (v : Word) : State := { s with regs := s.regs.set r.toNat v }

/-- The stored program counter `x[15]` (10_state.md R24). -/
def State.pc (s : State) : Word := s.reg pcReg

/-- `pc <- target` (10_state.md R25). -/
def State.setPc (s : State) (v : Word) : State := s.setReg pcReg v

/-- Write the status word. -/
def State.setStatus (s : State) (v : Word) : State := { s with status := v }

/-- Write the mode selector. -/
def State.setMode (s : State) (m : Mode) : State := { s with mode := m }

/-- Write the current-instruction register and the address of its instruction. -/
def State.setInstr (s : State) (iaddr instr : Word) : State := { s with iaddr := iaddr, instr := instr }

/-- Write the run state. -/
def State.setRun (s : State) (r : RunState) : State := { s with run := r }

/-- Write the bytes of memory. -/
def State.setMem (s : State) (m : Memory) : State := { s with mem := m }

/-- Write the segment table, which only the Loader does (20_memory.md R50). -/
def State.setSegs (s : State) (t : SegmentTable) : State := { s with segs := t }

/-- Write the shim's coming replies and its call count. -/
def State.setShim (s : State) (replies : List ShimReply) (calls : Nat) : State :=
  { s with shim := replies, shimCalls := calls }

/-! ## Why a step stops -/

/-- A step ends in a fault. Every one of the first five is the spec's own outcome `Fault(kind, detail)` (00_scope.md
R9, 60_exceptions.md R441): fatal, with the state the run stops in (`final`), whose run state is `faulted` (R444,
R445). All are safe: the machine stops where the spec says that it stops. -/
inductive Fault where
  /-- Raised by the instructions of 60_exceptions.md R442 that the design lacks. Safe: the spec's own fault. -/
  | unimplementedInstruction (iaddr instr : Word) (final : State)
  /-- Raised by a word with no meaning (60_exceptions.md R442). Safe: the spec's own fault. -/
  | undefinedInstruction (iaddr instr : Word) (final : State)
  /-- Raised by fetch and by every load and store (20_memory.md R60, R64). Safe: the spec's own fault. -/
  | segmentFault (addr : Word) (final : State)
  /-- Raised by fetch and by half-word and word accesses (20_memory.md R59, R64). Safe: the spec's own fault. -/
  | alignmentFault (addr : Word) (final : State)
  /-- Raised by wide BX and BLX and by compact POP (48_mode_switch.md R422). Safe: the spec's own fault. -/
  | modeSwitchUnsupported (iaddr instr target : Word) (final : State)
  /-- A step was asked of a machine that no longer runs: no move exists (93_implementation_defined.md S1, 10_state.md
  R32). Raised by `step` alone. Safe: nothing happens. -/
  | notRunning (final : State)
deriving DecidableEq, Repr

/-- A step is refused: the spec gives no behaviour. -/
inductive Refusal where
  /-- An instruction with no meaning yet, rejected by name in `exec`. Safe: nothing can be proved of it. -/
  | notModelled (mnemonic : String)
  /-- The spec's mark `Refused(iaddr, instr)` on exactly the register combinations of 60_exceptions.md R463; `final`
  is the marked state, none of whose values may be used. Safe: it errs toward the unprovable. -/
  | registerCombination (iaddr instr : Word) (final : State)
  /-- A launch whose segment table is malformed (20_memory.md R52, D36). Raised by `launch` alone. Safe: no run
  begins. -/
  | malformedLaunch
deriving DecidableEq, Repr

/-- What a meaning answers. -/
abbrev Out := Host.Outcome State Fault Refusal

/-! ## Reset -/

/-- A Loader descriptor for a kind that is absent from the image: size 0 (70_reset_and_hazards.md R481). -/
def absentSegment : Segment := { base := 0, size := 0 }

/-- No image: all four descriptors absent. DESIGN CHOICE, log entry 3. -/
def noImage : SegmentTable :=
  { code := absentSegment, rodata := absentSegment, data := absentSegment, bss := absentSegment }

/-- The stack constants are those of the test configuration of 95_test_vectors.md (DESIGN CHOICE, log entry 4); the
mode-switch direction is the spec's default (48_mode_switch.md R423). -/
def resetParams : Params := { stackTop := 0x00040000#32, stackSize := 0x1000, bidirSwitch := false }

/-- The machine right after reset (10_state.md R35, 70_reset_and_hazards.md R480): mode WIDE, the program counter at
ENTRY, the stack pointer at STACK_TOP, running. ENTRY and what the spec leaves unspecified are 0 (DESIGN CHOICE, log
entries 2, 3, 6, 7, 8). -/
def State.reset : State :=
  { regs := #v[0#32, 0#32, 0#32, 0#32, 0#32, 0#32, 0#32, 0#32, 0#32, 0#32, 0#32, 0#32, 0#32, resetParams.stackTop,
      0#32, 0#32]
    status := 0#32
    mode := .wide
    instr := 0#32
    iaddr := 0#32
    run := .running
    segs := noImage
    params := resetParams
    mem := []
    shim := []
    shimCalls := 0 }

end Sys2Proof.Machine
end

