-- ==== Sys2Proof/Machine/Flags.lean ====
section
/-! DEFINITION. The status flags, the condition evaluator and the adder (10_state.md R27, R28,
40_cond_shifter_alu.md R130 to R132, R150 to R154). -/

namespace Sys2Proof.Machine

/-! ## Status bits -/

/-- Negative, status bit 31 (10_state.md R27). -/
def flagN (s : State) : Bool := bit s.status 31

/-- Zero, status bit 30 (10_state.md R27). -/
def flagZ (s : State) : Bool := bit s.status 30

/-- Carry, status bit 29 (10_state.md R27). -/
def flagC (s : State) : Bool := bit s.status 29

/-- Overflow, status bit 28 (10_state.md R27). -/
def flagV (s : State) : Bool := bit s.status 28

/-- A status word with its four flags replaced; bits 27:0 are never changed (10_state.md R27,
40_cond_shifter_alu.md R154). -/
def statusWith (st : Word) (n z c v : Bool) : Word :=
  BitVec.ofBool n ++ BitVec.ofBool z ++ BitVec.ofBool c ++ BitVec.ofBool v ++ field st 0 28

/-- The state with its four flags replaced. -/
def setFlags (s : State) (n z c v : Bool) : State := s.setStatus (statusWith s.status n z c v)

/-! ## Condition evaluator -/

/-- `CondPassed(cond)`: the "passes iff" column of 40_cond_shifter_alu.md R130, on the four flags (R131). -/
def condHolds (c : Cond) (n z cf v : Bool) : Bool :=
  match c with
  | .eq => z
  | .ne => !z
  | .cs => cf
  | .cc => !cf
  | .mi => n
  | .pl => !n
  | .vs => v
  | .vc => !v
  | .hi => cf && !z
  | .ls => !cf || z
  | .ge => n == v
  | .lt => n != v
  | .gt => !z && n == v
  | .le => z || n != v
  | .al => true

/-- `CondPassed(cond)` on the flags of a state (40_cond_shifter_alu.md R131). -/
def condPassed (c : Cond) (s : State) : Bool := condHolds c (flagN s) (flagZ s) (flagC s) (flagV s)

/-- Conditional execution (40_cond_shifter_alu.md R132): an instruction whose condition fails has no effect and no
fault; the fetch has already advanced the program counter. -/
def whenPassed (c : Cond) (s : State) (effect : Out) : Out := if condPassed c s then effect else .next s

/-! ## Adder and flag update -/

/-- What the adder answers (40_cond_shifter_alu.md R150). -/
structure Sum where
  result : Word
  carry : Bool
  overflow : Bool
deriving DecidableEq, Repr

/-- `AddWithCarry(a, b, cin)` by unbounded sums (40_cond_shifter_alu.md R150). -/
def addWithCarry (a b : Word) (cin : Bool) : Sum :=
  let usum : Nat := a.toNat + b.toNat + cin.toNat
  let ssum : Int := a.toInt + b.toInt + cin.toNat
  let result : Word := BitVec.ofNat 32 usum
  { result := result, carry := decide (2 ^ 32 ≤ usum), overflow := decide (ssum ≠ result.toInt) }

/-- `m - s - (1 - cin)` as the addition of the complement (40_cond_shifter_alu.md R152). -/
def subWithCarry (m s : Word) (cin : Bool) : Sum := addWithCarry m (~~~s) cin

/-- `SetFlagsNZ(result)` (40_cond_shifter_alu.md R154). -/
def setFlagsNZ (s : State) (result : Word) : State :=
  setFlags s (bit result 31) (result == 0#32) (flagC s) (flagV s)

/-- `SetFlagsLogic(result, shifter_carry)` (40_cond_shifter_alu.md R154): V is unaffected. -/
def setFlagsLogic (s : State) (result : Word) (carry : Bool) : State :=
  setFlags s (bit result 31) (result == 0#32) carry (flagV s)

/-- `SetFlagsArith(result, carry, overflow)` (40_cond_shifter_alu.md R154). -/
def setFlagsArith (s : State) (r : Sum) : State :=
  setFlags s (bit r.result 31) (r.result == 0#32) r.carry r.overflow

end Sys2Proof.Machine
end

