-- ==== Sys2Proof/Machine/Ops.lean ====
section
/-! DEFINITION. The named operations over registers and memory: taking a fault and marking a refusal
(60_exceptions.md R441, R463), the address translator and the checked accesses (20_memory.md R57 to R64), fetch,
register reads (10_state.md R24), the mode switch (48_mode_switch.md R421), block transfers (R445) and the syscall
trap (60_exceptions.md R450, R451). -/

namespace Sys2Proof.Machine

/-! ## Faults and refusals -/

/-- `raise K(detail)` (60_exceptions.md R441): the run state becomes `Faulted(K, detail)`, the step's outcome is that
fault, and nothing is saved anywhere for the guest. `s` is the state at the point of detection (R444, R445). -/
def raise (k : FaultKind) (s : State) : Out :=
  match k with
  | .unimplementedInstruction iaddr instr => .fault (.unimplementedInstruction iaddr instr (s.setRun (.faulted k)))
  | .undefinedInstruction iaddr instr => .fault (.undefinedInstruction iaddr instr (s.setRun (.faulted k)))
  | .segmentFault addr => .fault (.segmentFault addr (s.setRun (.faulted k)))
  | .alignmentFault addr => .fault (.alignmentFault addr (s.setRun (.faulted k)))
  | .modeSwitchUnsupported iaddr instr target =>
    .fault (.modeSwitchUnsupported iaddr instr target (s.setRun (.faulted k)))

/-- `raise UnimplementedInstruction(iaddr, instr)`. -/
def unimplemented (s : State) : Out := raise (.unimplementedInstruction s.iaddr s.instr) s

/-- `raise UndefinedInstruction(iaddr, instr)`. -/
def undefined (s : State) : Out := raise (.undefinedInstruction s.iaddr s.instr) s

/-- The mark `Refused(iaddr, instr)` (60_exceptions.md R463): nothing has been written but the program counter
advance. -/
def refuse (s : State) : Out :=
  .refused (.registerCombination s.iaddr s.instr (s.setRun (.refused s.iaddr s.instr)))

/-- An instruction whose refusal predicate is evaluated before anything else in its rule, any `raise` and any memory
check included (60_exceptions.md R463). -/
def unlessRefused (refused : Bool) (s : State) (effect : Out) : Out := if refused then refuse s else effect

/-! ## Segments and the address translator -/

/-- The exclusive end of a segment, unbounded (20_memory.md R51). -/
def segEnd (g : Segment) : Nat := g.base + g.size

/-- A segment owns an address (20_memory.md R51). -/
def segOwns (g : Segment) (a : Nat) : Bool := decide (g.base ≤ a) && decide (a < segEnd g)

/-- The low end of the stack (20_memory.md R54). -/
def stackLow (p : Params) : Nat := p.stackTop.toNat - p.stackSize

/-- The range of each kind of segment: the Loader's four, the heap from the end of bss to the stack's low end
(20_memory.md R53), and the stack below STACK_TOP (R54). -/
def segmentOf (t : SegmentTable) (p : Params) : SegmentKind → Segment
  | .code => t.code
  | .rodata => t.rodata
  | .data => t.data
  | .bss => t.bss
  | .heap => { base := segEnd t.bss, size := stackLow p - segEnd t.bss }
  | .stack => { base := stackLow p, size := p.stackSize }

/-- `resolve(a)` (20_memory.md R57): the segment that owns an address, `none` where it raises `SegmentFault(a)`. -/
def resolve (s : State) (a : Nat) : Option SegmentKind :=
  [SegmentKind.code, .rodata, .data, .bss, .heap, .stack].find? fun k => segOwns (segmentOf s.segs s.params k) a

/-- Natural alignment (20_memory.md R59). -/
def aligned (a : Word) (w : Width) : Bool := a.toNat % w.bytes == 0

/-- All bytes of an access lie in a segment (20_memory.md R60 step 3). -/
def fits (s : State) (k : SegmentKind) (a : Word) (w : Width) : Bool :=
  decide (a.toNat + w.bytes ≤ segEnd (segmentOf s.segs s.params k))

/-- The checks of one data access, in their order (20_memory.md R60): the fault it raises, if any. -/
def accessFault (s : State) (a : Word) (w : Width) : Option FaultKind :=
  if aligned a w then
    match resolve s a.toNat with
    | some k => if fits s k a w then none else some (.segmentFault a)
    | none => some (.segmentFault a)
  else some (.alignmentFault a)

/-- `MemRead(addr, n)` (20_memory.md R60, R63): the value zero-extended to 32 bits. -/
def memRead (s : State) (a : Word) (w : Width) : Except FaultKind Word :=
  match accessFault s a w with
  | some k => .error k
  | none => .ok (memValue s.mem a.toNat w)

/-- `MemWrite(addr, n, v)` (20_memory.md R60, R63). -/
def memWrite (s : State) (a : Word) (v : Word) (w : Width) : Except FaultKind State :=
  match accessFault s a w with
  | some k => .error k
  | none => .ok (s.setMem (memStore s.mem a.toNat v w))

/-! ## Fetch -/

/-- `Fetch(addr, n)` at the program counter (20_memory.md R64): alignment, then the code segment, then its end. -/
def fetch (s : State) : Except FaultKind Word :=
  if aligned s.pc s.mode.instrWidth then
    match resolve s s.pc.toNat with
    | some .code =>
      if fits s .code s.pc s.mode.instrWidth then .ok (memValue s.mem s.pc.toNat s.mode.instrWidth)
      else .error (.segmentFault s.pc)
    | _ => .error (.segmentFault s.pc)
  else .error (.alignmentFault s.pc)

/-- The fetched bits as an instruction of the active mode (30_encoding.md R91). -/
def codeOfFetched (m : Mode) (w : Word) : Code :=
  match m with
  | .wide => .wide w
  | .compact => .compact (w.setWidth 16)

/-- The fetched word enters the current-instruction register and the program counter advances (10_state.md R24,
R31, 00_scope.md R9). -/
def advance (s : State) (w : Word) : State :=
  (s.setInstr s.pc w).setPc (s.pc + BitVec.ofNat 32 s.mode.instrWidth.bytes)

/-- A word that selects no row (30_encoding.md R98, R99, R104): wide words with a condition evaluate it first
(40_cond_shifter_alu.md R132, 60_exceptions.md R446). -/
def execUndecoded (e : DecodeError) (s : State) : Out :=
  match e, s.mode, Cond.ofBits (field s.instr 28 4) with
  | .noRow, .wide, some c => whenPassed c s (undefined s)
  | _, _, _ => undefined s

/-! ## Registers -/

/-- An operand read of the wide engine: register 15 reads `iaddr + 8` (10_state.md R24). -/
def readWide (s : State) (r : Reg) : Word := if r = pcReg then s.iaddr + 8#32 else s.reg r

/-- An operand read of the compact engine's high-register group: register 15 reads `iaddr + 4` (10_state.md R24). -/
def readCompact (s : State) (r : Reg) : Word := if r = pcReg then s.iaddr + 4#32 else s.reg r

/-- The register a compact 3-bit field names (10_state.md R23). -/
def lowReg (r : LowReg) : Reg := r.setWidth 4

/-- An operand read of a compact 3-bit register field. -/
def readLow (s : State) (r : LowReg) : Word := s.reg (lowReg r)

/-- A value "masked to a word boundary" (10_state.md R25). -/
def wordMask : Word := 0xFFFFFFFC#32

/-- A value with bit 0 cleared (10_state.md R25). -/
def halfMask : Word := 0xFFFFFFFE#32

/-- The address of the next compact instruction with "its low bit set to mark the calling mode"
(47_compact_misc_branch.md R399, 45_compact_alu.md R326). -/
def compactLink (s : State) : Word := (s.iaddr + 2#32) ||| 1#32

/-- The mode-switch transfer (48_mode_switch.md R421): in the single-file view all 16 registers, the status word and
memory stay and only the selector changes (10_state.md R22). -/
def switchMode (target : Mode) (s : State) : State := s.setMode target

/-! ## Transfers of several words -/

/-- How a sequence of accesses ends: all done, or stopped by a fault with the earlier ones done (60_exceptions.md
R445). -/
inductive Transfer where
  | done (addr : Word) (s : State)
  | stopped (k : FaultKind) (s : State)
deriving DecidableEq, Repr

/-- The registers a compact register list names, ascending (46_compact_load_store.md R365). -/
def listRegs (list : BitVec 8) : List Reg :=
  ([0#4, 1#4, 2#4, 3#4, 4#4, 5#4, 6#4, 7#4] : List Reg).filter fun r => bit list r.toNat

/-- Store registers word by word at ascending addresses (46_compact_load_store.md R365, R369). -/
def storeRegs : List Reg → Word → State → Transfer
  | [], addr, s => .done addr s
  | r :: rest, addr, s =>
    match memWrite s addr (s.reg r) .word with
    | .error k => .stopped k s
    | .ok s' => storeRegs rest (addr + 4#32) s'

/-- Load registers word by word from ascending addresses (46_compact_load_store.md R366, R368). -/
def loadRegs : List Reg → Word → State → Transfer
  | [], addr, s => .done addr s
  | r :: rest, addr, s =>
    match memRead s addr .word with
    | .error k => .stopped k s
    | .ok v => loadRegs rest (addr + 4#32) (s.setReg r v)

/-! ## The syscall trap -/

/-- The accesses the Syscall Shim makes, through the checked accessors only; the first that fails its checks stops
it, with whatever it had written before kept (60_exceptions.md R451). -/
def shimAccesses : List ShimAccess → State → Transfer
  | [], s => .done 0#32 s
  | .read addr w :: rest, s =>
    match memRead s addr w with
    | .error k => .stopped k s
    | .ok _ => shimAccesses rest s
  | .write addr w v :: rest, s =>
    match memWrite s addr v w with
    | .error k => .stopped k s
    | .ok s' => shimAccesses rest s'

/-- The shim's answer to this trap: the next reply the state lists, and past the list the free value, applied to all
the shim sees (60_exceptions.md R450, log entry 8). -/
def shimReply (s : State) : ShimReply :=
  match s.shim with
  | r :: _ => r
  | [] => Config.hostShim s.shimCalls s.regs s.status s.segs s.mem s.params.stackTop s.params.stackSize

/-- The reply is used up and the trap counted. -/
def countTrap (s : State) : State := s.setShim s.shim.tail (s.shimCalls + 1)

/-- What one answer of the shim does (60_exceptions.md R450, R451): its accesses, the result into `x[0]`, and
`ProgramEnd` if it ends the run (R448). -/
def applyReply (reply : ShimReply) (s : State) : Out :=
  match shimAccesses reply.accesses s with
  | .stopped k s' => raise k s'
  | .done _ s' =>
    if reply.ends then .next ((s'.setReg 0#4 reply.result).setRun .terminated)
    else .next (s'.setReg 0#4 reply.result)

/-- The trap of both modes (60_exceptions.md R450): the shim acts wholly inside the trapping step. -/
def trap (s : State) : Out := applyReply (shimReply s) (countTrap s)

end Sys2Proof.Machine
end

