-- ==== Sys2Proof/Machine/Operands.lean ====
section
/-! DEFINITION. The shifter and every operand form (40_cond_shifter_alu.md R134 to R138, 43_wide_load_store.md R230
to R234, 30_encoding.md R96, R103). -/

namespace Sys2Proof.Machine

/-- What the shifter answers: a value and a carry-out (40_cond_shifter_alu.md R134). -/
structure Shifted where
  value : Word
  carry : Bool
deriving DecidableEq, Repr

/-- `ROR(v, n)` for `n <= 31` (00_scope.md R8). -/
def rotateRight (v : Word) (n : Nat) : Word := if n = 0 then v else v >>> n ||| v <<< (32 - n)

/-- `Shift_C(LSL, v, n, cin)` (40_cond_shifter_alu.md R135). -/
def shiftLsl (v : Word) (n : Nat) (cin : Bool) : Shifted :=
  if n = 0 then ⟨v, cin⟩
  else if n < 32 then ⟨v <<< n, bit v (32 - n)⟩
  else if n = 32 then ⟨0#32, bit v 0⟩
  else ⟨0#32, false⟩

/-- `Shift_C(LSR, v, n, cin)` (40_cond_shifter_alu.md R135). -/
def shiftLsr (v : Word) (n : Nat) (cin : Bool) : Shifted :=
  if n = 0 then ⟨v, cin⟩
  else if n < 32 then ⟨v >>> n, bit v (n - 1)⟩
  else if n = 32 then ⟨0#32, bit v 31⟩
  else ⟨0#32, false⟩

/-- `Shift_C(ASR, v, n, cin)` (40_cond_shifter_alu.md R135). -/
def shiftAsr (v : Word) (n : Nat) (cin : Bool) : Shifted :=
  if n = 0 then ⟨v, cin⟩
  else if n < 32 then ⟨v.sshiftRight n, bit v (n - 1)⟩
  else ⟨if bit v 31 then 0xFFFFFFFF#32 else 0#32, bit v 31⟩

/-- `Shift_C(ROR, v, n, cin)` (40_cond_shifter_alu.md R135). -/
def shiftRor (v : Word) (n : Nat) (cin : Bool) : Shifted :=
  if n = 0 then ⟨v, cin⟩
  else if n % 32 = 0 then ⟨v, bit v 31⟩
  else ⟨rotateRight v (n % 32), bit v (n % 32 - 1)⟩

/-- `Shift_C(RRX, v, -, cin)` (40_cond_shifter_alu.md R135). -/
def shiftRrx (v : Word) (cin : Bool) : Shifted := ⟨BitVec.ofBool cin ++ field v 1 31, bit v 0⟩

/-- `Shift_C(type, v, n, cin)` (40_cond_shifter_alu.md R135). -/
def shiftC (t : ShiftType) (v : Word) (n : Nat) (cin : Bool) : Shifted :=
  match t with
  | .lsl => shiftLsl v n cin
  | .lsr => shiftLsr v n cin
  | .asr => shiftAsr v n cin
  | .ror => shiftRor v n cin

/-- An immediate amount of LSR and ASR: the field 0 means 32 (40_cond_shifter_alu.md R137). -/
def amountOr32 (a : BitVec 5) : Nat := if a = 0#5 then 32 else a.toNat

/-- An immediate amount with its zero cases, on a value (40_cond_shifter_alu.md R137). -/
def shiftByImm (t : ShiftType) (v : Word) (a : BitVec 5) (cin : Bool) : Shifted :=
  match t with
  | .lsl => shiftC .lsl v a.toNat cin
  | .lsr => shiftC .lsr v (amountOr32 a) cin
  | .asr => shiftC .asr v (amountOr32 a) cin
  | .ror => if a = 0#5 then shiftRrx v cin else shiftC .ror v a.toNat cin

/-- An amount held in the low byte of a register, on a value (40_cond_shifter_alu.md R138). -/
def shiftByReg (t : ShiftType) (v amount : Word) (cin : Bool) : Shifted := shiftC t v (field amount 0 8).toNat cin

/-! ## The operand of a wide data-processing instruction -/

/-- W-DPI, the rotated immediate (40_cond_shifter_alu.md R136). -/
def operandImm (s : State) (rot : BitVec 4) (imm : BitVec 8) : Shifted :=
  let value := rotateRight (imm.setWidth 32) (2 * rot.toNat)
  ⟨value, if rot = 0#4 then flagC s else bit value 31⟩

/-- W-DPIS, a register shifted by an immediate amount (40_cond_shifter_alu.md R137). -/
def operandReg (s : State) (amount : BitVec 5) (t : ShiftType) (rm : Reg) : Shifted :=
  shiftByImm t (readWide s rm) amount (flagC s)

/-- W-DPRS, a register shifted by a register (40_cond_shifter_alu.md R138). -/
def operandRsr (s : State) (rs : Reg) (t : ShiftType) (rm : Reg) : Shifted :=
  shiftByReg t (readWide s rm) (readWide s rs) (flagC s)

/-! ## Memory addressing of the wide engine -/

/-- W-LSI, the immediate offset (43_wide_load_store.md R230). -/
def offsetImm12 (imm12 : BitVec 12) : Word := imm12.setWidth 32

/-- W-LSR, the register and scaled-register offset; the carry-out is discarded (43_wide_load_store.md R231, R232). -/
def offsetScaled (s : State) (amount : BitVec 5) (t : ShiftType) (rm : Reg) : Word :=
  (shiftByImm t (readWide s rm) amount (flagC s)).value

/-- W-XLSI, the split 8-bit offset (43_wide_load_store.md R233). -/
def offsetSplit (immH immL : BitVec 4) : Word := (immH ++ immL).setWidth 32

/-- W-XLSR, the unshifted register offset (43_wide_load_store.md R233). -/
def offsetReg (s : State) (rm : Reg) : Word := readWide s rm

/-- `off_addr`: the base plus or minus the offset, modulo 2^32 (43_wide_load_store.md R234, 20_memory.md R65). -/
def offAddr (s : State) (u : Bool) (rn : Reg) (offset : Word) : Word :=
  if u then readWide s rn + offset else readWide s rn - offset

/-- The address a transfer uses (43_wide_load_store.md R234, R235). -/
def lsAddr (s : State) (p u : Bool) (rn : Reg) (offset : Word) : Word :=
  if p then offAddr s u rn offset else readWide s rn

/-- Whether the base register is written back (43_wide_load_store.md R235). -/
def lsWritesBack (p w : Bool) : Bool := !p || w

/-! ## Immediates of the compact engine -/

/-- A word offset or address immediate, scaled by 4 (30_encoding.md R103). -/
def scaled4 (imm : BitVec n) : Word := imm.setWidth 32 <<< 2

/-- A half-word offset, scaled by 2 (30_encoding.md R103). -/
def scaled2 (imm : BitVec n) : Word := imm.setWidth 32 <<< 1

/-- A byte offset, or an immediate operand (30_encoding.md R103). -/
def scaled1 (imm : BitVec n) : Word := imm.setWidth 32

/-- A signed compact branch offset, times 2 (30_encoding.md R103). -/
def branchOffset2 (imm : BitVec n) : Word := imm.signExtend 32 <<< 1

/-- The wide branch offset, times 4 (30_encoding.md R96). -/
def branchOffset4 (imm24 : BitVec 24) : Word := imm24.signExtend 32 <<< 2

/-- The high part of a compact branch-with-link, `sext_32(imm11) << 12` (30_encoding.md R103). -/
def linkHigh (imm11 : BitVec 11) : Word := imm11.signExtend 32 <<< 12

/-- `PCread AND 0xFFFFFFFC`, the base of the compact PC-relative forms (46_compact_load_store.md R340, R359). -/
def pcBase (s : State) : Word := readCompact s pcReg &&& wordMask

/-! ## Extension -/

/-- Keep a loaded value as it is: memory reads are zero-extended (20_memory.md R58). -/
def extendZero (v : Word) : Word := v

/-- Sign-extend the low byte (40_cond_shifter_alu.md R156). -/
def extendByte (v : Word) : Word := (field v 0 8).signExtend 32

/-- Sign-extend the low half-word (40_cond_shifter_alu.md R156). -/
def extendHalf (v : Word) : Word := (field v 0 16).signExtend 32

end Sys2Proof.Machine
end

