-- ==== Sys2Proof/Machine/CompactAlu.lean ====
section
/-! DEFINITION. Compact shift, add and subtract, logic, high-register and branch/exchange instructions
(45_compact_alu.md R280 to R326). -/

namespace Sys2Proof.Machine

/-! ## Shared operations -/

/-- `x[Rd] <- result; SetFlagsLogic(result, carry)`: the shifts (45_compact_alu.md R280). -/
def compactShift (rd : LowReg) (r : Shifted) (s : State) : Out :=
  .next (setFlagsLogic (s.setReg (lowReg rd) r.value) r.value r.carry)

/-- `x[Rd] <- r; SetFlagsArith(r, c, v)`: addition and subtraction (45_compact_alu.md R280). -/
def compactArith (rd : LowReg) (r : Sum) (s : State) : Out := .next (setFlagsArith (s.setReg (lowReg rd) r.result) r)

/-- `x[Rd] <- r; SetFlagsNZ(r)`: logic, move and multiply (45_compact_alu.md R280). -/
def compactLogic (rd : LowReg) (r : Word) (s : State) : Out := .next (setFlagsNZ (s.setReg (lowReg rd) r) r)

/-- The write of ADD and MOV in the high-register group: no flags, and register 15 is a branch within compact mode
(45_compact_alu.md R321, R323). -/
def highWrite (rd : Reg) (v : Word) (s : State) : Out :=
  if rd = pcReg then .next (s.setPc (v &&& halfMask)) else .next (s.setReg rd v)

/-- The exchange of compact BX and BLX (45_compact_alu.md R325, R326): bit 0 of the target clear asks for the wide
engine, after the program counter is written. -/
def exchangeFromCompact (target : Word) (s : State) : Out :=
  let branched := s.setPc (target &&& halfMask)
  .next (if bit target 0 then branched else switchMode .wide branched)

/-! ## The instructions -/

/-- LSL, immediate (45_compact_alu.md R281). -/
def execCLslImm (imm5 : BitVec 5) (rm rd : LowReg) (s : State) : Out :=
  compactShift rd (shiftByImm .lsl (readLow s rm) imm5 (flagC s)) s

/-- LSR, immediate (45_compact_alu.md R282). -/
def execCLsrImm (imm5 : BitVec 5) (rm rd : LowReg) (s : State) : Out :=
  compactShift rd (shiftByImm .lsr (readLow s rm) imm5 (flagC s)) s

/-- ASR, immediate (45_compact_alu.md R283). -/
def execCAsrImm (imm5 : BitVec 5) (rm rd : LowReg) (s : State) : Out :=
  compactShift rd (shiftByImm .asr (readLow s rm) imm5 (flagC s)) s

/-- ADD, register (45_compact_alu.md R284). -/
def execCAddReg (rm rn rd : LowReg) (s : State) : Out :=
  compactArith rd (addWithCarry (readLow s rn) (readLow s rm) false) s

/-- SUB, register (45_compact_alu.md R285). -/
def execCSubReg (rm rn rd : LowReg) (s : State) : Out :=
  compactArith rd (subWithCarry (readLow s rn) (readLow s rm) true) s

/-- ADD, 3-bit immediate (45_compact_alu.md R286). -/
def execCAddImm3 (imm3 : BitVec 3) (rn rd : LowReg) (s : State) : Out :=
  compactArith rd (addWithCarry (readLow s rn) (scaled1 imm3) false) s

/-- SUB, 3-bit immediate (45_compact_alu.md R287). -/
def execCSubImm3 (imm3 : BitVec 3) (rn rd : LowReg) (s : State) : Out :=
  compactArith rd (subWithCarry (readLow s rn) (scaled1 imm3) true) s

/-- MOV, 8-bit immediate (45_compact_alu.md R288). -/
def execCMovImm8 (rd : LowReg) (imm8 : BitVec 8) (s : State) : Out := compactLogic rd (scaled1 imm8) s

/-- CMP, 8-bit immediate (45_compact_alu.md R289). -/
def execCCmpImm8 (rd : LowReg) (imm8 : BitVec 8) (s : State) : Out :=
  .next (setFlagsArith s (subWithCarry (readLow s rd) (scaled1 imm8) true))

/-- ADD, 8-bit immediate (45_compact_alu.md R290). -/
def execCAddImm8 (rd : LowReg) (imm8 : BitVec 8) (s : State) : Out :=
  compactArith rd (addWithCarry (readLow s rd) (scaled1 imm8) false) s

/-- SUB, 8-bit immediate (45_compact_alu.md R291). -/
def execCSubImm8 (rd : LowReg) (imm8 : BitVec 8) (s : State) : Out :=
  compactArith rd (subWithCarry (readLow s rd) (scaled1 imm8) true) s

/-- AND (45_compact_alu.md R301). -/
def execCAnd (rm rd : LowReg) (s : State) : Out := compactLogic rd (readLow s rd &&& readLow s rm) s

/-- EOR (45_compact_alu.md R302). -/
def execCEor (rm rd : LowReg) (s : State) : Out := compactLogic rd (readLow s rd ^^^ readLow s rm) s

/-- LSL, register: the amount register stands in the Rm position (45_compact_alu.md R303). -/
def execCLsl (rm rd : LowReg) (s : State) : Out :=
  compactShift rd (shiftByReg .lsl (readLow s rd) (readLow s rm) (flagC s)) s

/-- LSR, register: the amount register stands in the Rm position (45_compact_alu.md R304). -/
def execCLsr (rm rd : LowReg) (s : State) : Out :=
  compactShift rd (shiftByReg .lsr (readLow s rd) (readLow s rm) (flagC s)) s

/-- ASR, register: the amount register stands in the Rm position (45_compact_alu.md R305). -/
def execCAsr (rm rd : LowReg) (s : State) : Out :=
  compactShift rd (shiftByReg .asr (readLow s rd) (readLow s rm) (flagC s)) s

/-- ADC (45_compact_alu.md R306). -/
def execCAdc (rm rd : LowReg) (s : State) : Out :=
  compactArith rd (addWithCarry (readLow s rd) (readLow s rm) (flagC s)) s

/-- SBC (45_compact_alu.md R307). -/
def execCSbc (rm rd : LowReg) (s : State) : Out :=
  compactArith rd (subWithCarry (readLow s rd) (readLow s rm) (flagC s)) s

/-- ROR, register: the amount register stands in the Rm position (45_compact_alu.md R308). -/
def execCRor (rm rd : LowReg) (s : State) : Out :=
  compactShift rd (shiftByReg .ror (readLow s rd) (readLow s rm) (flagC s)) s

/-- TST (45_compact_alu.md R309). -/
def execCTst (rm rd : LowReg) (s : State) : Out := .next (setFlagsNZ s (readLow s rd &&& readLow s rm))

/-- NEG (45_compact_alu.md R310). -/
def execCNeg (rm rd : LowReg) (s : State) : Out := compactArith rd (subWithCarry 0#32 (readLow s rm) true) s

/-- CMP, low registers (45_compact_alu.md R311). -/
def execCCmp (rm rd : LowReg) (s : State) : Out :=
  .next (setFlagsArith s (subWithCarry (readLow s rd) (readLow s rm) true))

/-- CMN (45_compact_alu.md R312). -/
def execCCmn (rm rd : LowReg) (s : State) : Out :=
  .next (setFlagsArith s (addWithCarry (readLow s rd) (readLow s rm) false))

/-- ORR (45_compact_alu.md R313). -/
def execCOrr (rm rd : LowReg) (s : State) : Out := compactLogic rd (readLow s rd ||| readLow s rm) s

/-- MUL (45_compact_alu.md R314). -/
def execCMul (rm rd : LowReg) (s : State) : Out := compactLogic rd (readLow s rd * readLow s rm) s

/-- BIC (45_compact_alu.md R315). -/
def execCBic (rm rd : LowReg) (s : State) : Out := compactLogic rd (readLow s rd &&& ~~~(readLow s rm)) s

/-- MVN (45_compact_alu.md R316). -/
def execCMvn (rm rd : LowReg) (s : State) : Out := compactLogic rd (~~~(readLow s rm)) s

/-- ADD, high registers (45_compact_alu.md R321). -/
def execCAddHi (rm rd : Reg) (s : State) : Out := highWrite rd (readCompact s rd + readCompact s rm) s

/-- CMP, high registers (45_compact_alu.md R322). -/
def execCCmpHi (rm rd : Reg) (s : State) : Out :=
  .next (setFlagsArith s (subWithCarry (readCompact s rd) (readCompact s rm) true))

/-- MOV, high registers (45_compact_alu.md R323). -/
def execCMovHi (rm rd : Reg) (s : State) : Out := highWrite rd (readCompact s rm) s

/-- BX (45_compact_alu.md R325). -/
def execCBx (rm : Reg) (s : State) : Out := exchangeFromCompact (readCompact s rm) s

/-- BLX, register: the target is read before the link register is written; Rm = 15 is refused (45_compact_alu.md R326,
60_exceptions.md R463). -/
def execCBlxReg (rm : Reg) (s : State) : Out :=
  unlessRefused (rm == pcReg) s (exchangeFromCompact (readCompact s rm) (s.setReg lrReg (compactLink s)))

end Sys2Proof.Machine
end

