-- ==== Sys2Proof/Machine/CompactBranch.lean ====
section
/-! DEFINITION. Compact stack-pointer adjust, extend, reverse, branches, the branch-with-link pair, software interrupt
and the unsupported instructions (47_compact_misc_branch.md R380 to R402). -/

namespace Sys2Proof.Machine

/-! ## Shared operations -/

/-- The target of the PC-relative branches (47_compact_misc_branch.md R395, R397). -/
def compactBranchTarget (s : State) (offset : Word) : Word := s.iaddr + 4#32 + offset

/-- `b0 : b1 : b2 : b3` (47_compact_misc_branch.md R386). -/
def reverseWord (v : Word) : Word := byteOfWord v 0 ++ byteOfWord v 1 ++ byteOfWord v 2 ++ byteOfWord v 3

/-- `b2 : b3 : b0 : b1` (47_compact_misc_branch.md R387). -/
def reverseHalves (v : Word) : Word := byteOfWord v 2 ++ byteOfWord v 3 ++ byteOfWord v 0 ++ byteOfWord v 1

/-- `sext_32(b0 : b1)` (47_compact_misc_branch.md R388). -/
def reverseSigned (v : Word) : Word := (byteOfWord v 0 ++ byteOfWord v 1).signExtend 32

/-- A register written and nothing else. -/
def compactMove (rd : LowReg) (v : Word) (s : State) : Out := .next (s.setReg (lowReg rd) v)

/-! ## The instructions -/

/-- ADD, SP plus immediate (47_compact_misc_branch.md R380). -/
def execCAddSpImm (imm7 : BitVec 7) (s : State) : Out := .next (s.setReg spReg (s.reg spReg + scaled4 imm7))

/-- SUB, SP minus immediate (47_compact_misc_branch.md R381). -/
def execCSubSpImm (imm7 : BitVec 7) (s : State) : Out := .next (s.setReg spReg (s.reg spReg - scaled4 imm7))

/-- SXTH (47_compact_misc_branch.md R382). -/
def execCSxth (rm rd : LowReg) (s : State) : Out := compactMove rd (extendHalf (readLow s rm)) s

/-- SXTB (47_compact_misc_branch.md R383). -/
def execCSxtb (rm rd : LowReg) (s : State) : Out := compactMove rd (extendByte (readLow s rm)) s

/-- UXTH (47_compact_misc_branch.md R384). -/
def execCUxth (rm rd : LowReg) (s : State) : Out := compactMove rd ((field (readLow s rm) 0 16).setWidth 32) s

/-- UXTB (47_compact_misc_branch.md R385). -/
def execCUxtb (rm rd : LowReg) (s : State) : Out := compactMove rd ((field (readLow s rm) 0 8).setWidth 32) s

/-- SETEND: always `UnimplementedInstruction` (47_compact_misc_branch.md R392). -/
def execCSetend (_e : Bool) (s : State) : Out := unimplemented s

/-- CPS: always `UnimplementedInstruction` (47_compact_misc_branch.md R390). -/
def execCCps (_imod _a _i _f : Bool) (s : State) : Out := unimplemented s

/-- REV (47_compact_misc_branch.md R386). -/
def execCRev (rm rd : LowReg) (s : State) : Out := compactMove rd (reverseWord (readLow s rm)) s

/-- REV16 (47_compact_misc_branch.md R387). -/
def execCRev16 (rm rd : LowReg) (s : State) : Out := compactMove rd (reverseHalves (readLow s rm)) s

/-- The unallocated reversal: always `UndefinedInstruction` (47_compact_misc_branch.md R389). -/
def execCRevUnalloc (_rm _rd : LowReg) (s : State) : Out := undefined s

/-- REVSH (47_compact_misc_branch.md R388). -/
def execCRevsh (rm rd : LowReg) (s : State) : Out := compactMove rd (reverseSigned (readLow s rm)) s

/-- BKPT, compact: always `UnimplementedInstruction` (47_compact_misc_branch.md R391). -/
def execCBkpt (_imm8 : BitVec 8) (s : State) : Out := unimplemented s

/-- B<cond> (47_compact_misc_branch.md R395). -/
def execCBcond (c : Cond) (imm8 : BitVec 8) (s : State) : Out :=
  whenPassed c s (.next (s.setPc (compactBranchTarget s (branchOffset2 imm8))))

/-- The conditional branch with condition 1110: always `UndefinedInstruction` (47_compact_misc_branch.md R396). -/
def execCBcond1110 (_imm8 : BitVec 8) (s : State) : Out := undefined s

/-- SWI with the trap immediate (47_compact_misc_branch.md R401). -/
def execCSwiTrap (s : State) : Out := trap s

/-- SWI with any other immediate: always `UnimplementedInstruction` (47_compact_misc_branch.md R402). -/
def execCSwiOther (_imm8 : BitVec 8) (s : State) : Out := unimplemented s

/-- B (47_compact_misc_branch.md R397). -/
def execCB (imm11 : BitVec 11) (s : State) : Out := .next (s.setPc (compactBranchTarget s (branchOffset2 imm11)))

/-- BLX suffix: always `UnimplementedInstruction` (47_compact_misc_branch.md R400). -/
def execCBlxSuffix (_imm11 : BitVec 11) (s : State) : Out := unimplemented s

/-- BL prefix (47_compact_misc_branch.md R398). -/
def execCBlPrefix (imm11 : BitVec 11) (s : State) : Out :=
  .next (s.setReg lrReg (readCompact s pcReg + linkHigh imm11))

/-- BL suffix: the target is read before the link register is written (47_compact_misc_branch.md R399). -/
def execCBlSuffix (imm11 : BitVec 11) (s : State) : Out :=
  .next ((s.setReg lrReg (compactLink s)).setPc (s.reg lrReg + scaled2 imm11))

end Sys2Proof.Machine
end

