-- ==== Sys2Proof/Machine/CompactLoadStore.lean ====
section
/-! DEFINITION. Compact load and store, address formation, push, pop and load/store multiple
(46_compact_load_store.md R340 to R369). -/

namespace Sys2Proof.Machine

/-! ## Shared operations -/

/-- A single load: the checked read, then the register (46_compact_load_store.md, the paragraph before R340). -/
def compactLoad (width : Width) (extend : Word → Word) (rd : LowReg) (addr : Word) (s : State) : Out :=
  match memRead s addr width with
  | .error k => raise k s
  | .ok v => .next (s.setReg (lowReg rd) (extend v))

/-- A single store (46_compact_load_store.md, the paragraph before R340). -/
def compactStore (width : Width) (rd : LowReg) (addr : Word) (s : State) : Out :=
  match memWrite s addr (readLow s rd) width with
  | .error k => raise k s
  | .ok s' => .next s'

/-- The address of the register-offset forms (46_compact_load_store.md R341). -/
def regAddr (s : State) (rn rm : LowReg) : Word := readLow s rn + readLow s rm

/-- The address of the SP-relative forms (46_compact_load_store.md R357). -/
def spAddr (s : State) (imm8 : BitVec 8) : Word := s.reg spReg + scaled4 imm8

/-- Four bytes for each register of a list, as an address difference. -/
def listBytes (regs : List Reg) : Word := BitVec.ofNat 32 (4 * regs.length)

/-- The registers PUSH stores, ascending, the link register last (46_compact_load_store.md R365). -/
def pushRegs (lr : Bool) (list : BitVec 8) : List Reg := listRegs list ++ (if lr then [lrReg] else [])

/-- The lowest address PUSH stores to, which the stack pointer ends at (46_compact_load_store.md R365). -/
def pushStart (s : State) (lr : Bool) (list : BitVec 8) : Word := s.reg spReg - listBytes (pushRegs lr list)

/-- The program-counter word of POP, read last; `s` has the listed registers loaded (46_compact_load_store.md R366):
bit 0 set stays in compact mode, bit 0 clear asks for the wide engine, which only a design with `BIDIR_SWITCH`
performs. The stack pointer is written last. -/
def popPc (addr : Word) (s : State) : Out :=
  match memRead s addr .word with
  | .error k => raise k s
  | .ok v =>
    if bit v 0 then .next ((s.setPc (v &&& halfMask)).setReg spReg (addr + 4#32))
    else if s.params.bidirSwitch then .next (switchMode .wide ((s.setPc v).setReg spReg (addr + 4#32)))
    else raise (.modeSwitchUnsupported s.iaddr s.instr v) s

/-! ## The instructions -/

/-- LDR, literal (46_compact_load_store.md R340). -/
def execCLdrLit (rd : LowReg) (imm8 : BitVec 8) (s : State) : Out :=
  compactLoad .word extendZero rd (pcBase s + scaled4 imm8) s

/-- STR, register offset (46_compact_load_store.md R342). -/
def execCStrReg (rm rn rd : LowReg) (s : State) : Out := compactStore .word rd (regAddr s rn rm) s

/-- STRH, register offset (46_compact_load_store.md R343). -/
def execCStrhReg (rm rn rd : LowReg) (s : State) : Out := compactStore .half rd (regAddr s rn rm) s

/-- STRB, register offset (46_compact_load_store.md R344). -/
def execCStrbReg (rm rn rd : LowReg) (s : State) : Out := compactStore .byte rd (regAddr s rn rm) s

/-- LDRSB, register offset (46_compact_load_store.md R345). -/
def execCLdrsbReg (rm rn rd : LowReg) (s : State) : Out := compactLoad .byte extendByte rd (regAddr s rn rm) s

/-- LDR, register offset (46_compact_load_store.md R346). -/
def execCLdrReg (rm rn rd : LowReg) (s : State) : Out := compactLoad .word extendZero rd (regAddr s rn rm) s

/-- LDRH, register offset (46_compact_load_store.md R347). -/
def execCLdrhReg (rm rn rd : LowReg) (s : State) : Out := compactLoad .half extendZero rd (regAddr s rn rm) s

/-- LDRB, register offset (46_compact_load_store.md R348). -/
def execCLdrbReg (rm rn rd : LowReg) (s : State) : Out := compactLoad .byte extendZero rd (regAddr s rn rm) s

/-- LDRSH, register offset (46_compact_load_store.md R349). -/
def execCLdrshReg (rm rn rd : LowReg) (s : State) : Out := compactLoad .half extendHalf rd (regAddr s rn rm) s

/-- STR, immediate offset (46_compact_load_store.md R351). -/
def execCStrImm (imm5 : BitVec 5) (rn rd : LowReg) (s : State) : Out :=
  compactStore .word rd (readLow s rn + scaled4 imm5) s

/-- LDR, immediate offset (46_compact_load_store.md R352). -/
def execCLdrImm (imm5 : BitVec 5) (rn rd : LowReg) (s : State) : Out :=
  compactLoad .word extendZero rd (readLow s rn + scaled4 imm5) s

/-- STRB, immediate offset (46_compact_load_store.md R353). -/
def execCStrbImm (imm5 : BitVec 5) (rn rd : LowReg) (s : State) : Out :=
  compactStore .byte rd (readLow s rn + scaled1 imm5) s

/-- LDRB, immediate offset (46_compact_load_store.md R354). -/
def execCLdrbImm (imm5 : BitVec 5) (rn rd : LowReg) (s : State) : Out :=
  compactLoad .byte extendZero rd (readLow s rn + scaled1 imm5) s

/-- STRH, immediate offset (46_compact_load_store.md R355). -/
def execCStrhImm (imm5 : BitVec 5) (rn rd : LowReg) (s : State) : Out :=
  compactStore .half rd (readLow s rn + scaled2 imm5) s

/-- LDRH, immediate offset (46_compact_load_store.md R356). -/
def execCLdrhImm (imm5 : BitVec 5) (rn rd : LowReg) (s : State) : Out :=
  compactLoad .half extendZero rd (readLow s rn + scaled2 imm5) s

/-- STR, SP-relative (46_compact_load_store.md R357). -/
def execCStrSp (rd : LowReg) (imm8 : BitVec 8) (s : State) : Out := compactStore .word rd (spAddr s imm8) s

/-- LDR, SP-relative (46_compact_load_store.md R358). -/
def execCLdrSp (rd : LowReg) (imm8 : BitVec 8) (s : State) : Out := compactLoad .word extendZero rd (spAddr s imm8) s

/-- ADD, PC-relative address (46_compact_load_store.md R359). -/
def execCAddPc (rd : LowReg) (imm8 : BitVec 8) (s : State) : Out :=
  .next (s.setReg (lowReg rd) (pcBase s + scaled4 imm8))

/-- ADD, SP-relative address (46_compact_load_store.md R360). -/
def execCAddSp (rd : LowReg) (imm8 : BitVec 8) (s : State) : Out := .next (s.setReg (lowReg rd) (spAddr s imm8))

/-- PUSH: the words in ascending order, the stack pointer last (46_compact_load_store.md R365, 60_exceptions.md
R445). -/
def execCPush (lr : Bool) (list : BitVec 8) (s : State) : Out :=
  match storeRegs (pushRegs lr list) (pushStart s lr list) s with
  | .stopped k s' => raise k s'
  | .done _ s' => .next (s'.setReg spReg (pushStart s lr list))

/-- POP: the words in ascending order, the program counter next to last, the stack pointer last
(46_compact_load_store.md R366, 60_exceptions.md R445). -/
def execCPop (pc : Bool) (list : BitVec 8) (s : State) : Out :=
  match loadRegs (listRegs list) (s.reg spReg) s with
  | .stopped k s' => raise k s'
  | .done addr s' => if pc then popPc addr s' else .next (s'.setReg spReg addr)

/-- STMIA: a listed base is stored with its original value; the write-back comes last (46_compact_load_store.md R369,
60_exceptions.md R445). -/
def execCStmia (rn : LowReg) (list : BitVec 8) (s : State) : Out :=
  match storeRegs (listRegs list) (readLow s rn) s with
  | .stopped k s' => raise k s'
  | .done _ s' => .next (s'.setReg (lowReg rn) (readLow s rn + listBytes (listRegs list)))

/-- LDMIA: the write-back comes last and always, so it replaces a loaded base (46_compact_load_store.md R368,
60_exceptions.md R445). -/
def execCLdmia (rn : LowReg) (list : BitVec 8) (s : State) : Out :=
  match loadRegs (listRegs list) (readLow s rn) s with
  | .stopped k s' => raise k s'
  | .done _ s' => .next (s'.setReg (lowReg rn) (readLow s rn + listBytes (listRegs list)))

end Sys2Proof.Machine
end

