-- ==== Sys2Proof/Machine/WideBranch.lean ====
section
/-! DEFINITION. Wide branch, block transfer, media, coprocessor and software interrupt (44_wide_branch_block_swi.md
R260 to R268). -/

namespace Sys2Proof.Machine

/-- The target of B and BL (44_wide_branch_block_swi.md R260). -/
def wideBranchTarget (s : State) (imm24 : BitVec 24) : Word := s.iaddr + 8#32 + branchOffset4 imm24

/-- Media: `UnimplementedInstruction` once its condition passes (44_wide_branch_block_swi.md R264). -/
def execMedia (c : Cond) (_hi : BitVec 20) (_lo : BitVec 4) (s : State) : Out := whenPassed c s (unimplemented s)

/-- STM: `UnimplementedInstruction` once its condition passes (44_wide_branch_block_swi.md R263). -/
def execStm (c : Cond) (_p _u _sb _w : Bool) (_rn : Reg) (_list : BitVec 16) (s : State) : Out :=
  whenPassed c s (unimplemented s)

/-- LDM: `UnimplementedInstruction` once its condition passes (44_wide_branch_block_swi.md R262). -/
def execLdm (c : Cond) (_p _u _sb _w : Bool) (_rn : Reg) (_list : BitVec 16) (s : State) : Out :=
  whenPassed c s (unimplemented s)

/-- B (44_wide_branch_block_swi.md R260). -/
def execB (c : Cond) (imm24 : BitVec 24) (s : State) : Out :=
  whenPassed c s (.next (s.setPc (wideBranchTarget s imm24)))

/-- BL (44_wide_branch_block_swi.md R261). -/
def execBl (c : Cond) (imm24 : BitVec 24) (s : State) : Out :=
  whenPassed c s (.next ((s.setReg lrReg (s.iaddr + 4#32)).setPc (wideBranchTarget s imm24)))

/-- LDC, STC, MCRR, MRRC: `UnimplementedInstruction` once its condition passes (44_wide_branch_block_swi.md R265). -/
def execCopMem (c : Cond) (_bits : BitVec 25) (s : State) : Out := whenPassed c s (unimplemented s)

/-- CDP, MCR, MRC: `UnimplementedInstruction` once its condition passes (44_wide_branch_block_swi.md R266). -/
def execCopReg (c : Cond) (_bits : BitVec 24) (s : State) : Out := whenPassed c s (unimplemented s)

/-- SWI with the trap immediate (44_wide_branch_block_swi.md R267). -/
def execSwiTrap (c : Cond) (s : State) : Out := whenPassed c s (trap s)

/-- SWI with any other immediate: no operation (44_wide_branch_block_swi.md R268). -/
def execSwiOther (c : Cond) (_imm24 : BitVec 24) (s : State) : Out := whenPassed c s (.next s)

end Sys2Proof.Machine
end

