-- ==== Sys2Proof/Machine/WideDataProcessing.lean ====
section
/-! DEFINITION. Wide data-processing (41_wide_data_processing.md R170 to R190): the relation of each opcode, the
common execution, and one meaning per opcode and operand format. -/

namespace Sys2Proof.Machine

/-! ## The relations -/

/-- The result of a data-processing relation and how it sets the flags (41_wide_data_processing.md R171). -/
inductive AluOut where
  | logical (value : Word) (carry : Bool)
  | arithmetic (sum : Sum)
deriving DecidableEq, Repr

/-- The result itself. -/
def aluValue : AluOut → Word
  | .logical value _ => value
  | .arithmetic sum => sum.result

/-- The flags it writes when `S = 1` (41_wide_data_processing.md R171). -/
def aluFlags (r : AluOut) (s : State) : State :=
  match r with
  | .logical value carry => setFlagsLogic s value carry
  | .arithmetic sum => setFlagsArith s sum

/-- AND and TST (R175, R183). -/
def aluAnd (op1 : Word) (op2 : Shifted) : AluOut := .logical (op1 &&& op2.value) op2.carry

/-- EOR and TEQ (R176, R184). -/
def aluEor (op1 : Word) (op2 : Shifted) : AluOut := .logical (op1 ^^^ op2.value) op2.carry

/-- SUB and CMP (R177, R185). -/
def aluSub (op1 : Word) (op2 : Shifted) : AluOut := .arithmetic (subWithCarry op1 op2.value true)

/-- RSB (R178). -/
def aluRsb (op1 : Word) (op2 : Shifted) : AluOut := .arithmetic (subWithCarry op2.value op1 true)

/-- ADD and CMN (R179, R186). -/
def aluAdd (op1 : Word) (op2 : Shifted) : AluOut := .arithmetic (addWithCarry op1 op2.value false)

/-- ADC (R180), on the carry flag before the instruction. -/
def aluAdc (cin : Bool) (op1 : Word) (op2 : Shifted) : AluOut := .arithmetic (addWithCarry op1 op2.value cin)

/-- SBC (R181), on the carry flag before the instruction. -/
def aluSbc (cin : Bool) (op1 : Word) (op2 : Shifted) : AluOut := .arithmetic (subWithCarry op1 op2.value cin)

/-- RSC (R182), on the carry flag before the instruction. -/
def aluRsc (cin : Bool) (op1 : Word) (op2 : Shifted) : AluOut := .arithmetic (subWithCarry op2.value op1 cin)

/-- ORR (R187). -/
def aluOrr (op1 : Word) (op2 : Shifted) : AluOut := .logical (op1 ||| op2.value) op2.carry

/-- MOV (R188): the first operand is not read. -/
def aluMov (op2 : Shifted) : AluOut := .logical op2.value op2.carry

/-- BIC (R189). -/
def aluBic (op1 : Word) (op2 : Shifted) : AluOut := .logical (op1 &&& ~~~op2.value) op2.carry

/-- MVN (R190): the first operand is not read. -/
def aluMvn (op2 : Shifted) : AluOut := .logical (~~~op2.value) op2.carry

/-! ## The common execution -/

/-- A non-compare (41_wide_data_processing.md R171 to R173): `S = 1` with `Rd = 15` faults, `Rd = 15` branches to a
word boundary, and any other Rd is written together with the flags. -/
def dpWrite (sf : Bool) (rd : Reg) (r : AluOut) (s : State) : Out :=
  if rd = pcReg then
    if sf then unimplemented s else .next (s.setPc (aluValue r &&& wordMask))
  else
    let written := s.setReg rd (aluValue r)
    .next (if sf then aluFlags r written else written)

/-- A compare (41_wide_data_processing.md R171, R174): only flags, and `Rd = 15` faults. -/
def dpCompare (rd : Reg) (r : AluOut) (s : State) : Out :=
  if rd = pcReg then unimplemented s else .next (aluFlags r s)

/-- The refused words of format W-DPRS (60_exceptions.md R463) for opcodes that read Rn and write Rd. -/
def rsrRefused (sf : Bool) (rn rd rs rm : Reg) : Bool :=
  rm == pcReg || rs == pcReg || rn == pcReg || (!sf && rd == pcReg)

/-- The refused words of format W-DPRS (60_exceptions.md R463) for MOV and MVN, which do not read Rn. -/
def rsrMoveRefused (sf : Bool) (rd rs rm : Reg) : Bool := rm == pcReg || rs == pcReg || (!sf && rd == pcReg)

/-- The refused words of format W-DPRS (60_exceptions.md R463) for the compares, which do not write Rd. -/
def rsrCompareRefused (rn rs rm : Reg) : Bool := rm == pcReg || rs == pcReg || rn == pcReg

/-! ## The instructions -/

/-- AND, format W-DPI (41_wide_data_processing.md R175). -/
def execAndImm (c : Cond) (sf : Bool) (rn rd : Reg) (rot : BitVec 4) (imm : BitVec 8) (s : State) : Out :=
  whenPassed c s (dpWrite sf rd (aluAnd (readWide s rn) (operandImm s rot imm)) s)

/-- AND, format W-DPIS (41_wide_data_processing.md R175). -/
def execAndReg (c : Cond) (sf : Bool) (rn rd : Reg) (amount : BitVec 5) (sh : ShiftType) (rm : Reg) (s : State) : Out :=
  whenPassed c s (dpWrite sf rd (aluAnd (readWide s rn) (operandReg s amount sh rm)) s)

/-- AND, format W-DPRS (41_wide_data_processing.md R175). -/
def execAndRsr (c : Cond) (sf : Bool) (rn rd rs : Reg) (sh : ShiftType) (rm : Reg) (s : State) : Out :=
  whenPassed c s (unlessRefused (rsrRefused sf rn rd rs rm) s
    (dpWrite sf rd (aluAnd (readWide s rn) (operandRsr s rs sh rm)) s))

/-- EOR, format W-DPI (41_wide_data_processing.md R176). -/
def execEorImm (c : Cond) (sf : Bool) (rn rd : Reg) (rot : BitVec 4) (imm : BitVec 8) (s : State) : Out :=
  whenPassed c s (dpWrite sf rd (aluEor (readWide s rn) (operandImm s rot imm)) s)

/-- EOR, format W-DPIS (41_wide_data_processing.md R176). -/
def execEorReg (c : Cond) (sf : Bool) (rn rd : Reg) (amount : BitVec 5) (sh : ShiftType) (rm : Reg) (s : State) : Out :=
  whenPassed c s (dpWrite sf rd (aluEor (readWide s rn) (operandReg s amount sh rm)) s)

/-- EOR, format W-DPRS (41_wide_data_processing.md R176). -/
def execEorRsr (c : Cond) (sf : Bool) (rn rd rs : Reg) (sh : ShiftType) (rm : Reg) (s : State) : Out :=
  whenPassed c s (unlessRefused (rsrRefused sf rn rd rs rm) s
    (dpWrite sf rd (aluEor (readWide s rn) (operandRsr s rs sh rm)) s))

/-- SUB, format W-DPI (41_wide_data_processing.md R177). -/
def execSubImm (c : Cond) (sf : Bool) (rn rd : Reg) (rot : BitVec 4) (imm : BitVec 8) (s : State) : Out :=
  whenPassed c s (dpWrite sf rd (aluSub (readWide s rn) (operandImm s rot imm)) s)

/-- SUB, format W-DPIS (41_wide_data_processing.md R177). -/
def execSubReg (c : Cond) (sf : Bool) (rn rd : Reg) (amount : BitVec 5) (sh : ShiftType) (rm : Reg) (s : State) : Out :=
  whenPassed c s (dpWrite sf rd (aluSub (readWide s rn) (operandReg s amount sh rm)) s)

/-- SUB, format W-DPRS (41_wide_data_processing.md R177). -/
def execSubRsr (c : Cond) (sf : Bool) (rn rd rs : Reg) (sh : ShiftType) (rm : Reg) (s : State) : Out :=
  whenPassed c s (unlessRefused (rsrRefused sf rn rd rs rm) s
    (dpWrite sf rd (aluSub (readWide s rn) (operandRsr s rs sh rm)) s))

/-- RSB, format W-DPI (41_wide_data_processing.md R178). -/
def execRsbImm (c : Cond) (sf : Bool) (rn rd : Reg) (rot : BitVec 4) (imm : BitVec 8) (s : State) : Out :=
  whenPassed c s (dpWrite sf rd (aluRsb (readWide s rn) (operandImm s rot imm)) s)

/-- RSB, format W-DPIS (41_wide_data_processing.md R178). -/
def execRsbReg (c : Cond) (sf : Bool) (rn rd : Reg) (amount : BitVec 5) (sh : ShiftType) (rm : Reg) (s : State) : Out :=
  whenPassed c s (dpWrite sf rd (aluRsb (readWide s rn) (operandReg s amount sh rm)) s)

/-- RSB, format W-DPRS (41_wide_data_processing.md R178). -/
def execRsbRsr (c : Cond) (sf : Bool) (rn rd rs : Reg) (sh : ShiftType) (rm : Reg) (s : State) : Out :=
  whenPassed c s (unlessRefused (rsrRefused sf rn rd rs rm) s
    (dpWrite sf rd (aluRsb (readWide s rn) (operandRsr s rs sh rm)) s))

/-- ADD, format W-DPI (41_wide_data_processing.md R179). -/
def execAddImm (c : Cond) (sf : Bool) (rn rd : Reg) (rot : BitVec 4) (imm : BitVec 8) (s : State) : Out :=
  whenPassed c s (dpWrite sf rd (aluAdd (readWide s rn) (operandImm s rot imm)) s)

/-- ADD, format W-DPIS (41_wide_data_processing.md R179). -/
def execAddReg (c : Cond) (sf : Bool) (rn rd : Reg) (amount : BitVec 5) (sh : ShiftType) (rm : Reg) (s : State) : Out :=
  whenPassed c s (dpWrite sf rd (aluAdd (readWide s rn) (operandReg s amount sh rm)) s)

/-- ADD, format W-DPRS (41_wide_data_processing.md R179). -/
def execAddRsr (c : Cond) (sf : Bool) (rn rd rs : Reg) (sh : ShiftType) (rm : Reg) (s : State) : Out :=
  whenPassed c s (unlessRefused (rsrRefused sf rn rd rs rm) s
    (dpWrite sf rd (aluAdd (readWide s rn) (operandRsr s rs sh rm)) s))

/-- ADC, format W-DPI (41_wide_data_processing.md R180). -/
def execAdcImm (c : Cond) (sf : Bool) (rn rd : Reg) (rot : BitVec 4) (imm : BitVec 8) (s : State) : Out :=
  whenPassed c s (dpWrite sf rd (aluAdc (flagC s) (readWide s rn) (operandImm s rot imm)) s)

/-- ADC, format W-DPIS (41_wide_data_processing.md R180). -/
def execAdcReg (c : Cond) (sf : Bool) (rn rd : Reg) (amount : BitVec 5) (sh : ShiftType) (rm : Reg) (s : State) : Out :=
  whenPassed c s (dpWrite sf rd (aluAdc (flagC s) (readWide s rn) (operandReg s amount sh rm)) s)

/-- ADC, format W-DPRS (41_wide_data_processing.md R180). -/
def execAdcRsr (c : Cond) (sf : Bool) (rn rd rs : Reg) (sh : ShiftType) (rm : Reg) (s : State) : Out :=
  whenPassed c s (unlessRefused (rsrRefused sf rn rd rs rm) s
    (dpWrite sf rd (aluAdc (flagC s) (readWide s rn) (operandRsr s rs sh rm)) s))

/-- SBC, format W-DPI (41_wide_data_processing.md R181). -/
def execSbcImm (c : Cond) (sf : Bool) (rn rd : Reg) (rot : BitVec 4) (imm : BitVec 8) (s : State) : Out :=
  whenPassed c s (dpWrite sf rd (aluSbc (flagC s) (readWide s rn) (operandImm s rot imm)) s)

/-- SBC, format W-DPIS (41_wide_data_processing.md R181). -/
def execSbcReg (c : Cond) (sf : Bool) (rn rd : Reg) (amount : BitVec 5) (sh : ShiftType) (rm : Reg) (s : State) : Out :=
  whenPassed c s (dpWrite sf rd (aluSbc (flagC s) (readWide s rn) (operandReg s amount sh rm)) s)

/-- SBC, format W-DPRS (41_wide_data_processing.md R181). -/
def execSbcRsr (c : Cond) (sf : Bool) (rn rd rs : Reg) (sh : ShiftType) (rm : Reg) (s : State) : Out :=
  whenPassed c s (unlessRefused (rsrRefused sf rn rd rs rm) s
    (dpWrite sf rd (aluSbc (flagC s) (readWide s rn) (operandRsr s rs sh rm)) s))

/-- RSC, format W-DPI (41_wide_data_processing.md R182). -/
def execRscImm (c : Cond) (sf : Bool) (rn rd : Reg) (rot : BitVec 4) (imm : BitVec 8) (s : State) : Out :=
  whenPassed c s (dpWrite sf rd (aluRsc (flagC s) (readWide s rn) (operandImm s rot imm)) s)

/-- RSC, format W-DPIS (41_wide_data_processing.md R182). -/
def execRscReg (c : Cond) (sf : Bool) (rn rd : Reg) (amount : BitVec 5) (sh : ShiftType) (rm : Reg) (s : State) : Out :=
  whenPassed c s (dpWrite sf rd (aluRsc (flagC s) (readWide s rn) (operandReg s amount sh rm)) s)

/-- RSC, format W-DPRS (41_wide_data_processing.md R182). -/
def execRscRsr (c : Cond) (sf : Bool) (rn rd rs : Reg) (sh : ShiftType) (rm : Reg) (s : State) : Out :=
  whenPassed c s (unlessRefused (rsrRefused sf rn rd rs rm) s
    (dpWrite sf rd (aluRsc (flagC s) (readWide s rn) (operandRsr s rs sh rm)) s))

/-- TST, format W-DPI (41_wide_data_processing.md R183). -/
def execTstImm (c : Cond) (rn rd : Reg) (rot : BitVec 4) (imm : BitVec 8) (s : State) : Out :=
  whenPassed c s (dpCompare rd (aluAnd (readWide s rn) (operandImm s rot imm)) s)

/-- TST, format W-DPIS (41_wide_data_processing.md R183). -/
def execTstReg (c : Cond) (rn rd : Reg) (amount : BitVec 5) (sh : ShiftType) (rm : Reg) (s : State) : Out :=
  whenPassed c s (dpCompare rd (aluAnd (readWide s rn) (operandReg s amount sh rm)) s)

/-- TST, format W-DPRS (41_wide_data_processing.md R183). -/
def execTstRsr (c : Cond) (rn rd rs : Reg) (sh : ShiftType) (rm : Reg) (s : State) : Out :=
  whenPassed c s (unlessRefused (rsrCompareRefused rn rs rm) s
    (dpCompare rd (aluAnd (readWide s rn) (operandRsr s rs sh rm)) s))

/-- TEQ, format W-DPI (41_wide_data_processing.md R184). -/
def execTeqImm (c : Cond) (rn rd : Reg) (rot : BitVec 4) (imm : BitVec 8) (s : State) : Out :=
  whenPassed c s (dpCompare rd (aluEor (readWide s rn) (operandImm s rot imm)) s)

/-- TEQ, format W-DPIS (41_wide_data_processing.md R184). -/
def execTeqReg (c : Cond) (rn rd : Reg) (amount : BitVec 5) (sh : ShiftType) (rm : Reg) (s : State) : Out :=
  whenPassed c s (dpCompare rd (aluEor (readWide s rn) (operandReg s amount sh rm)) s)

/-- TEQ, format W-DPRS (41_wide_data_processing.md R184). -/
def execTeqRsr (c : Cond) (rn rd rs : Reg) (sh : ShiftType) (rm : Reg) (s : State) : Out :=
  whenPassed c s (unlessRefused (rsrCompareRefused rn rs rm) s
    (dpCompare rd (aluEor (readWide s rn) (operandRsr s rs sh rm)) s))

/-- CMP, format W-DPI (41_wide_data_processing.md R185). -/
def execCmpImm (c : Cond) (rn rd : Reg) (rot : BitVec 4) (imm : BitVec 8) (s : State) : Out :=
  whenPassed c s (dpCompare rd (aluSub (readWide s rn) (operandImm s rot imm)) s)

/-- CMP, format W-DPIS (41_wide_data_processing.md R185). -/
def execCmpReg (c : Cond) (rn rd : Reg) (amount : BitVec 5) (sh : ShiftType) (rm : Reg) (s : State) : Out :=
  whenPassed c s (dpCompare rd (aluSub (readWide s rn) (operandReg s amount sh rm)) s)

/-- CMP, format W-DPRS (41_wide_data_processing.md R185). -/
def execCmpRsr (c : Cond) (rn rd rs : Reg) (sh : ShiftType) (rm : Reg) (s : State) : Out :=
  whenPassed c s (unlessRefused (rsrCompareRefused rn rs rm) s
    (dpCompare rd (aluSub (readWide s rn) (operandRsr s rs sh rm)) s))

/-- CMN, format W-DPI (41_wide_data_processing.md R186). -/
def execCmnImm (c : Cond) (rn rd : Reg) (rot : BitVec 4) (imm : BitVec 8) (s : State) : Out :=
  whenPassed c s (dpCompare rd (aluAdd (readWide s rn) (operandImm s rot imm)) s)

/-- CMN, format W-DPIS (41_wide_data_processing.md R186). -/
def execCmnReg (c : Cond) (rn rd : Reg) (amount : BitVec 5) (sh : ShiftType) (rm : Reg) (s : State) : Out :=
  whenPassed c s (dpCompare rd (aluAdd (readWide s rn) (operandReg s amount sh rm)) s)

/-- CMN, format W-DPRS (41_wide_data_processing.md R186). -/
def execCmnRsr (c : Cond) (rn rd rs : Reg) (sh : ShiftType) (rm : Reg) (s : State) : Out :=
  whenPassed c s (unlessRefused (rsrCompareRefused rn rs rm) s
    (dpCompare rd (aluAdd (readWide s rn) (operandRsr s rs sh rm)) s))

/-- ORR, format W-DPI (41_wide_data_processing.md R187). -/
def execOrrImm (c : Cond) (sf : Bool) (rn rd : Reg) (rot : BitVec 4) (imm : BitVec 8) (s : State) : Out :=
  whenPassed c s (dpWrite sf rd (aluOrr (readWide s rn) (operandImm s rot imm)) s)

/-- ORR, format W-DPIS (41_wide_data_processing.md R187). -/
def execOrrReg (c : Cond) (sf : Bool) (rn rd : Reg) (amount : BitVec 5) (sh : ShiftType) (rm : Reg) (s : State) : Out :=
  whenPassed c s (dpWrite sf rd (aluOrr (readWide s rn) (operandReg s amount sh rm)) s)

/-- ORR, format W-DPRS (41_wide_data_processing.md R187). -/
def execOrrRsr (c : Cond) (sf : Bool) (rn rd rs : Reg) (sh : ShiftType) (rm : Reg) (s : State) : Out :=
  whenPassed c s (unlessRefused (rsrRefused sf rn rd rs rm) s
    (dpWrite sf rd (aluOrr (readWide s rn) (operandRsr s rs sh rm)) s))

/-- MOV, format W-DPI (41_wide_data_processing.md R188). -/
def execMovImm (c : Cond) (sf : Bool) (_rn rd : Reg) (rot : BitVec 4) (imm : BitVec 8) (s : State) : Out :=
  whenPassed c s (dpWrite sf rd (aluMov (operandImm s rot imm)) s)

/-- MOV, format W-DPIS (41_wide_data_processing.md R188). -/
def execMovReg (c : Cond) (sf : Bool) (_rn rd : Reg) (amount : BitVec 5) (sh : ShiftType) (rm : Reg) (s : State) : Out :=
  whenPassed c s (dpWrite sf rd (aluMov (operandReg s amount sh rm)) s)

/-- MOV, format W-DPRS (41_wide_data_processing.md R188). -/
def execMovRsr (c : Cond) (sf : Bool) (_rn rd rs : Reg) (sh : ShiftType) (rm : Reg) (s : State) : Out :=
  whenPassed c s (unlessRefused (rsrMoveRefused sf rd rs rm) s
    (dpWrite sf rd (aluMov (operandRsr s rs sh rm)) s))

/-- BIC, format W-DPI (41_wide_data_processing.md R189). -/
def execBicImm (c : Cond) (sf : Bool) (rn rd : Reg) (rot : BitVec 4) (imm : BitVec 8) (s : State) : Out :=
  whenPassed c s (dpWrite sf rd (aluBic (readWide s rn) (operandImm s rot imm)) s)

/-- BIC, format W-DPIS (41_wide_data_processing.md R189). -/
def execBicReg (c : Cond) (sf : Bool) (rn rd : Reg) (amount : BitVec 5) (sh : ShiftType) (rm : Reg) (s : State) : Out :=
  whenPassed c s (dpWrite sf rd (aluBic (readWide s rn) (operandReg s amount sh rm)) s)

/-- BIC, format W-DPRS (41_wide_data_processing.md R189). -/
def execBicRsr (c : Cond) (sf : Bool) (rn rd rs : Reg) (sh : ShiftType) (rm : Reg) (s : State) : Out :=
  whenPassed c s (unlessRefused (rsrRefused sf rn rd rs rm) s
    (dpWrite sf rd (aluBic (readWide s rn) (operandRsr s rs sh rm)) s))

/-- MVN, format W-DPI (41_wide_data_processing.md R190). -/
def execMvnImm (c : Cond) (sf : Bool) (_rn rd : Reg) (rot : BitVec 4) (imm : BitVec 8) (s : State) : Out :=
  whenPassed c s (dpWrite sf rd (aluMvn (operandImm s rot imm)) s)

/-- MVN, format W-DPIS (41_wide_data_processing.md R190). -/
def execMvnReg (c : Cond) (sf : Bool) (_rn rd : Reg) (amount : BitVec 5) (sh : ShiftType) (rm : Reg) (s : State) : Out :=
  whenPassed c s (dpWrite sf rd (aluMvn (operandReg s amount sh rm)) s)

/-- MVN, format W-DPRS (41_wide_data_processing.md R190). -/
def execMvnRsr (c : Cond) (sf : Bool) (_rn rd rs : Reg) (sh : ShiftType) (rm : Reg) (s : State) : Out :=
  whenPassed c s (unlessRefused (rsrMoveRefused sf rd rs rm) s
    (dpWrite sf rd (aluMvn (operandRsr s rs sh rm)) s))

end Sys2Proof.Machine
end

