-- ==== Sys2Proof/Machine/WideLoadStore.lean ====
section
/-! DEFINITION. Wide single and extra load/store, swap and exclusive (43_wide_load_store.md R230 to R253): the common
transfer wrapper R235 and one meaning per row. -/

namespace Sys2Proof.Machine

/-! ## The transfer wrapper -/

/-- The refused register combinations of the immediate-offset forms (60_exceptions.md R463): write-back with Rn = 15,
write-back with Rn = Rd, and Rd = 15 where `pcAllowed` is false (all but LDR and STR). -/
def lsRefused (pcAllowed p w : Bool) (rn rd : Reg) : Bool :=
  (lsWritesBack p w && (rn == pcReg || rn == rd)) || (!pcAllowed && rd == pcReg)

/-- The refused register combinations of the register-offset forms: also Rm = 15 (60_exceptions.md R463). -/
def lsRegRefused (pcAllowed p w : Bool) (rn rd rm : Reg) : Bool := rm == pcReg || lsRefused pcAllowed p w rn rd

/-- The base register after the transfer: `off_addr`, computed in the state `s` before it (43_wide_load_store.md
R234, R235). -/
def lsBase (s : State) (p u w : Bool) (rn : Reg) (offset : Word) (t : State) : State :=
  if lsWritesBack p w then t.setReg rn (offAddr s u rn offset) else t

/-- A loaded value into Rd; into register 15 it is "masked to a word boundary" (43_wide_load_store.md R235, R236). -/
def lsWriteRd (s : State) (rd : Reg) (v : Word) : State :=
  if rd = pcReg then s.setPc (v &&& wordMask) else s.setReg rd v

/-- `LS(load, ...)` (43_wide_load_store.md R235): the checked read, then the base, then Rd. -/
def lsLoad (width : Width) (extend : Word → Word) (p u w : Bool) (rn rd : Reg) (offset : Word) (s : State) : Out :=
  match memRead s (lsAddr s p u rn offset) width with
  | .error k => raise k s
  | .ok v => .next (lsWriteRd (lsBase s p u w rn offset s) rd (extend v))

/-- `LS(store, ...)` (43_wide_load_store.md R235): the checked write, then the base. Register 15 is stored as
`iaddr + 8` (R237). -/
def lsStore (width : Width) (p u w : Bool) (rn rd : Reg) (offset : Word) (s : State) : Out :=
  match memWrite s (lsAddr s p u rn offset) (readWide s rd) width with
  | .error k => raise k s
  | .ok s' => .next (lsBase s p u w rn offset s')

/-! ## The instructions -/

/-- SWP: `UnimplementedInstruction` once its condition passes (43_wide_load_store.md R251). -/
def execSwp (c : Cond) (_rn _rd _rm : Reg) (s : State) : Out := whenPassed c s (unimplemented s)

/-- SWPB: `UnimplementedInstruction` once its condition passes (43_wide_load_store.md R251). -/
def execSwpb (c : Cond) (_rn _rd _rm : Reg) (s : State) : Out := whenPassed c s (unimplemented s)

/-- STREX: `UnimplementedInstruction` once its condition passes (43_wide_load_store.md R252). -/
def execStrex (c : Cond) (_rn _rd _rm : Reg) (s : State) : Out := whenPassed c s (unimplemented s)

/-- LDREX: `UnimplementedInstruction` once its condition passes (43_wide_load_store.md R252). -/
def execLdrex (c : Cond) (_rn _rd : Reg) (s : State) : Out := whenPassed c s (unimplemented s)

/-- STRH, immediate offset (43_wide_load_store.md R245). -/
def execStrhImm (c : Cond) (p u w : Bool) (rn rd : Reg) (immH immL : BitVec 4) (s : State) : Out :=
  whenPassed c s (unlessRefused (lsRefused false p w rn rd) s
    (lsStore .half p u w rn rd (offsetSplit immH immL) s))

/-- STRH, register offset (43_wide_load_store.md R245). -/
def execStrhReg (c : Cond) (p u w : Bool) (rn rd rm : Reg) (s : State) : Out :=
  whenPassed c s (unlessRefused (lsRegRefused false p w rn rd rm) s
    (lsStore .half p u w rn rd (offsetReg s rm) s))

/-- LDRD, immediate offset: `UnimplementedInstruction` once its condition passes (43_wide_load_store.md R248). -/
def execLdrdImm (c : Cond) (_p _u _w : Bool) (_rn _rd : Reg) (_immH _immL : BitVec 4) (s : State) : Out := whenPassed c s (unimplemented s)

/-- LDRD, register offset: `UnimplementedInstruction` once its condition passes (43_wide_load_store.md R248). -/
def execLdrdReg (c : Cond) (_p _u _w : Bool) (_rn _rd _rm : Reg) (s : State) : Out := whenPassed c s (unimplemented s)

/-- STRD, immediate offset: `UnimplementedInstruction` once its condition passes (43_wide_load_store.md R249). -/
def execStrdImm (c : Cond) (_p _u _w : Bool) (_rn _rd : Reg) (_immH _immL : BitVec 4) (s : State) : Out := whenPassed c s (unimplemented s)

/-- STRD, register offset: `UnimplementedInstruction` once its condition passes (43_wide_load_store.md R249). -/
def execStrdReg (c : Cond) (_p _u _w : Bool) (_rn _rd _rm : Reg) (s : State) : Out := whenPassed c s (unimplemented s)

/-- LDRH, immediate offset (43_wide_load_store.md R244). -/
def execLdrhImm (c : Cond) (p u w : Bool) (rn rd : Reg) (immH immL : BitVec 4) (s : State) : Out :=
  whenPassed c s (unlessRefused (lsRefused false p w rn rd) s
    (lsLoad .half extendZero p u w rn rd (offsetSplit immH immL) s))

/-- LDRH, register offset (43_wide_load_store.md R244). -/
def execLdrhReg (c : Cond) (p u w : Bool) (rn rd rm : Reg) (s : State) : Out :=
  whenPassed c s (unlessRefused (lsRegRefused false p w rn rd rm) s
    (lsLoad .half extendZero p u w rn rd (offsetReg s rm) s))

/-- LDRSB, immediate offset (43_wide_load_store.md R246). -/
def execLdrsbImm (c : Cond) (p u w : Bool) (rn rd : Reg) (immH immL : BitVec 4) (s : State) : Out :=
  whenPassed c s (unlessRefused (lsRefused false p w rn rd) s
    (lsLoad .byte extendByte p u w rn rd (offsetSplit immH immL) s))

/-- LDRSB, register offset (43_wide_load_store.md R246). -/
def execLdrsbReg (c : Cond) (p u w : Bool) (rn rd rm : Reg) (s : State) : Out :=
  whenPassed c s (unlessRefused (lsRegRefused false p w rn rd rm) s
    (lsLoad .byte extendByte p u w rn rd (offsetReg s rm) s))

/-- LDRSH, immediate offset: `UnimplementedInstruction` once its condition passes (43_wide_load_store.md R247). -/
def execLdrshImm (c : Cond) (_p _u _w : Bool) (_rn _rd : Reg) (_immH _immL : BitVec 4) (s : State) : Out := whenPassed c s (unimplemented s)

/-- LDRSH, register offset (43_wide_load_store.md R247). -/
def execLdrshReg (c : Cond) (p u w : Bool) (rn rd rm : Reg) (s : State) : Out :=
  whenPassed c s (unlessRefused (lsRegRefused false p w rn rd rm) s
    (lsLoad .half extendHalf p u w rn rd (offsetReg s rm) s))

/-- STR, immediate offset (43_wide_load_store.md R237). -/
def execStrImm (c : Cond) (p u w : Bool) (rn rd : Reg) (imm12 : BitVec 12) (s : State) : Out :=
  whenPassed c s (unlessRefused (lsRefused true p w rn rd) s
    (lsStore .word p u w rn rd (offsetImm12 imm12) s))

/-- STR, register and scaled-register offset (43_wide_load_store.md R237). -/
def execStrReg (c : Cond) (p u w : Bool) (rn rd : Reg) (amount : BitVec 5) (sh : ShiftType) (rm : Reg)
    (s : State) : Out :=
  whenPassed c s (unlessRefused (lsRegRefused true p w rn rd rm) s
    (lsStore .word p u w rn rd (offsetScaled s amount sh rm) s))

/-- STRT, immediate offset, always post-indexed with write-back (43_wide_load_store.md R241). -/
def execStrtImm (c : Cond) (u : Bool) (rn rd : Reg) (imm12 : BitVec 12) (s : State) : Out :=
  whenPassed c s (unlessRefused (lsRefused false false true rn rd) s
    (lsStore .word false u true rn rd (offsetImm12 imm12) s))

/-- STRT, register and scaled-register offset, always post-indexed with write-back (43_wide_load_store.md R241). -/
def execStrtReg (c : Cond) (u : Bool) (rn rd : Reg) (amount : BitVec 5) (sh : ShiftType) (rm : Reg)
    (s : State) : Out :=
  whenPassed c s (unlessRefused (lsRegRefused false false true rn rd rm) s
    (lsStore .word false u true rn rd (offsetScaled s amount sh rm) s))

/-- LDR, immediate offset (43_wide_load_store.md R236). -/
def execLdrImm (c : Cond) (p u w : Bool) (rn rd : Reg) (imm12 : BitVec 12) (s : State) : Out :=
  whenPassed c s (unlessRefused (lsRefused true p w rn rd) s
    (lsLoad .word extendZero p u w rn rd (offsetImm12 imm12) s))

/-- LDR, register and scaled-register offset (43_wide_load_store.md R236). -/
def execLdrReg (c : Cond) (p u w : Bool) (rn rd : Reg) (amount : BitVec 5) (sh : ShiftType) (rm : Reg)
    (s : State) : Out :=
  whenPassed c s (unlessRefused (lsRegRefused true p w rn rd rm) s
    (lsLoad .word extendZero p u w rn rd (offsetScaled s amount sh rm) s))

/-- LDRT, immediate offset, always post-indexed with write-back (43_wide_load_store.md R240). -/
def execLdrtImm (c : Cond) (u : Bool) (rn rd : Reg) (imm12 : BitVec 12) (s : State) : Out :=
  whenPassed c s (unlessRefused (lsRefused false false true rn rd) s
    (lsLoad .word extendZero false u true rn rd (offsetImm12 imm12) s))

/-- LDRT, register and scaled-register offset, always post-indexed with write-back (43_wide_load_store.md R240). -/
def execLdrtReg (c : Cond) (u : Bool) (rn rd : Reg) (amount : BitVec 5) (sh : ShiftType) (rm : Reg)
    (s : State) : Out :=
  whenPassed c s (unlessRefused (lsRegRefused false false true rn rd rm) s
    (lsLoad .word extendZero false u true rn rd (offsetScaled s amount sh rm) s))

/-- STRB, immediate offset (43_wide_load_store.md R239). -/
def execStrbImm (c : Cond) (p u w : Bool) (rn rd : Reg) (imm12 : BitVec 12) (s : State) : Out :=
  whenPassed c s (unlessRefused (lsRefused false p w rn rd) s
    (lsStore .byte p u w rn rd (offsetImm12 imm12) s))

/-- STRB, register and scaled-register offset (43_wide_load_store.md R239). -/
def execStrbReg (c : Cond) (p u w : Bool) (rn rd : Reg) (amount : BitVec 5) (sh : ShiftType) (rm : Reg)
    (s : State) : Out :=
  whenPassed c s (unlessRefused (lsRegRefused false p w rn rd rm) s
    (lsStore .byte p u w rn rd (offsetScaled s amount sh rm) s))

/-- STRBT, immediate offset, always post-indexed with write-back (43_wide_load_store.md R243). -/
def execStrbtImm (c : Cond) (u : Bool) (rn rd : Reg) (imm12 : BitVec 12) (s : State) : Out :=
  whenPassed c s (unlessRefused (lsRefused false false true rn rd) s
    (lsStore .byte false u true rn rd (offsetImm12 imm12) s))

/-- STRBT, register and scaled-register offset, always post-indexed with write-back (43_wide_load_store.md R243). -/
def execStrbtReg (c : Cond) (u : Bool) (rn rd : Reg) (amount : BitVec 5) (sh : ShiftType) (rm : Reg)
    (s : State) : Out :=
  whenPassed c s (unlessRefused (lsRegRefused false false true rn rd rm) s
    (lsStore .byte false u true rn rd (offsetScaled s amount sh rm) s))

/-- LDRB, immediate offset (43_wide_load_store.md R238). -/
def execLdrbImm (c : Cond) (p u w : Bool) (rn rd : Reg) (imm12 : BitVec 12) (s : State) : Out :=
  whenPassed c s (unlessRefused (lsRefused false p w rn rd) s
    (lsLoad .byte extendZero p u w rn rd (offsetImm12 imm12) s))

/-- LDRB, register and scaled-register offset (43_wide_load_store.md R238). -/
def execLdrbReg (c : Cond) (p u w : Bool) (rn rd : Reg) (amount : BitVec 5) (sh : ShiftType) (rm : Reg)
    (s : State) : Out :=
  whenPassed c s (unlessRefused (lsRegRefused false p w rn rd rm) s
    (lsLoad .byte extendZero p u w rn rd (offsetScaled s amount sh rm) s))

/-- LDRBT, immediate offset, always post-indexed with write-back (43_wide_load_store.md R242). -/
def execLdrbtImm (c : Cond) (u : Bool) (rn rd : Reg) (imm12 : BitVec 12) (s : State) : Out :=
  whenPassed c s (unlessRefused (lsRefused false false true rn rd) s
    (lsLoad .byte extendZero false u true rn rd (offsetImm12 imm12) s))

/-- LDRBT, register and scaled-register offset, always post-indexed with write-back (43_wide_load_store.md R242). -/
def execLdrbtReg (c : Cond) (u : Bool) (rn rd : Reg) (amount : BitVec 5) (sh : ShiftType) (rm : Reg)
    (s : State) : Out :=
  whenPassed c s (unlessRefused (lsRegRefused false false true rn rd rm) s
    (lsLoad .byte extendZero false u true rn rd (offsetScaled s amount sh rm) s))

end Sys2Proof.Machine
end

