-- ==== Sys2Proof/Machine/WideMisc.lean ====
section
/-! DEFINITION. Wide status-register moves, branch and exchange, count leading zeros, the multiplies and the rest of
the miscellaneous space (42_wide_misc_multiply.md R200 to R219). -/

namespace Sys2Proof.Machine

/-! ## Shared operations -/

/-- The exchange of wide BX and BLX (42_wide_misc_multiply.md R204, R205): bit 0 of the target asks for the compact
encoding, which only a design with `BIDIR_SWITCH` performs (48_mode_switch.md R422, R423). `s` is the state a fault
leaves, `linked` the state with the link register written. -/
def exchangeFromWide (target : Word) (linked s : State) : Out :=
  if bit target 0 then
    if s.params.bidirSwitch then .next (switchMode .compact (linked.setPc (target &&& halfMask)))
    else raise (.modeSwitchUnsupported s.iaddr s.instr target) s
  else .next (linked.setPc target)

/-- The index of the highest 1 bit among the low `n` bits of a word, if there is one. -/
def highestOne (v : Word) : Nat → Option Nat
  | 0 => none
  | n + 1 => if bit v n then some n else highestOne v n

/-- The number of leading zeros (42_wide_misc_multiply.md R206): 0 maps to 32, otherwise 31 minus the index of the
highest 1 bit. -/
def leadingZeros (v : Word) : Word :=
  match highestOne v 32 with
  | none => 32#32
  | some k => BitVec.ofNat 32 (31 - k)

/-! ## The instructions -/

/-- MRS (42_wide_misc_multiply.md R200): the saved status word (`R = 1`) does not exist; Rd = 15 is refused first. -/
def execMrs (c : Cond) (saved : Bool) (rd : Reg) (s : State) : Out :=
  whenPassed c s (unlessRefused (rd == pcReg) s
    (if saved then unimplemented s else .next (s.setReg rd s.status)))

/-- MSR, register: `UnimplementedInstruction` once its condition passes (42_wide_misc_multiply.md R201). -/
def execMsrReg (c : Cond) (_saved : Bool) (_mask : BitVec 4) (_rm : Reg) (s : State) : Out :=
  whenPassed c s (unimplemented s)

/-- MSR, immediate: `UnimplementedInstruction` once its condition passes (42_wide_misc_multiply.md R202). -/
def execMsrImm (c : Cond) (_saved : Bool) (_mask _rot : BitVec 4) (_imm : BitVec 8) (s : State) : Out :=
  whenPassed c s (unimplemented s)

/-- BX (42_wide_misc_multiply.md R204). -/
def execBx (c : Cond) (rm : Reg) (s : State) : Out := whenPassed c s (exchangeFromWide (readWide s rm) s s)

/-- BXJ: `UnimplementedInstruction` once its condition passes (42_wide_misc_multiply.md R217). -/
def execBxj (c : Cond) (_rm : Reg) (s : State) : Out := whenPassed c s (unimplemented s)

/-- BLX, register (42_wide_misc_multiply.md R205): the target is read before the link register is written. -/
def execBlxReg (c : Cond) (rm : Reg) (s : State) : Out :=
  whenPassed c s (unlessRefused (rm == pcReg) s
    (exchangeFromWide (readWide s rm) (s.setReg lrReg (s.iaddr + 4#32)) s))

/-- CLZ (42_wide_misc_multiply.md R206). -/
def execClz (c : Cond) (rd rm : Reg) (s : State) : Out :=
  whenPassed c s (unlessRefused (rd == pcReg || rm == pcReg) s (.next (s.setReg rd (leadingZeros (readWide s rm)))))

/-- QADD: `UnimplementedInstruction` once its condition passes (42_wide_misc_multiply.md R218). -/
def execQadd (c : Cond) (_rn _rd _rm : Reg) (s : State) : Out := whenPassed c s (unimplemented s)

/-- QSUB: `UnimplementedInstruction` once its condition passes (42_wide_misc_multiply.md R218). -/
def execQsub (c : Cond) (_rn _rd _rm : Reg) (s : State) : Out := whenPassed c s (unimplemented s)

/-- QDADD: `UnimplementedInstruction` once its condition passes (42_wide_misc_multiply.md R218). -/
def execQdadd (c : Cond) (_rn _rd _rm : Reg) (s : State) : Out := whenPassed c s (unimplemented s)

/-- QDSUB: `UnimplementedInstruction` once its condition passes (42_wide_misc_multiply.md R218). -/
def execQdsub (c : Cond) (_rn _rd _rm : Reg) (s : State) : Out := whenPassed c s (unimplemented s)

/-- BKPT, wide: `UnimplementedInstruction` once its condition passes (42_wide_misc_multiply.md R219). -/
def execBkpt (c : Cond) (_imm12 : BitVec 12) (_imm4 : BitVec 4) (s : State) : Out := whenPassed c s (unimplemented s)

/-- SMLA<x><y>: `UnimplementedInstruction` once its condition passes (42_wide_misc_multiply.md R203). -/
def execSmlaXY (c : Cond) (_rd _rn _rs : Reg) (_y _x : Bool) (_rm : Reg) (s : State) : Out :=
  whenPassed c s (unimplemented s)

/-- SMLAW<y> and SMULW<y>: `UnimplementedInstruction` once its condition passes (42_wide_misc_multiply.md R207). -/
def execSmlawSmulw (c : Cond) (_rd _rn _rs : Reg) (_y _x : Bool) (_rm : Reg) (s : State) : Out :=
  whenPassed c s (unimplemented s)

/-- SMLAL<x><y>: `UnimplementedInstruction` once its condition passes (42_wide_misc_multiply.md R208). -/
def execSmlalXY (c : Cond) (_rdHi _rdLo _rs : Reg) (_y _x : Bool) (_rm : Reg) (s : State) : Out :=
  whenPassed c s (unimplemented s)

/-- SMUL<x><y>: `UnimplementedInstruction` once its condition passes (42_wide_misc_multiply.md R209). -/
def execSmulXY (c : Cond) (_rd : Reg) (_ignored : BitVec 4) (_rs : Reg) (_y _x : Bool) (_rm : Reg) (s : State) : Out :=
  whenPassed c s (unimplemented s)

/-- MUL (42_wide_misc_multiply.md R210): the low 32 bits of the product; with `S = 1` only N and Z are written. -/
def execMul (c : Cond) (sf : Bool) (rd rs rm : Reg) (s : State) : Out :=
  whenPassed c s (unlessRefused (rd == pcReg || rm == pcReg || rs == pcReg) s
    (let result := readWide s rm * readWide s rs
     let written := s.setReg rd result
     .next (if sf then setFlagsNZ written result else written)))

/-- MLA: `UnimplementedInstruction` once its condition passes (42_wide_misc_multiply.md R211). -/
def execMla (c : Cond) (_sf : Bool) (_rd _rn _rs _rm : Reg) (s : State) : Out := whenPassed c s (unimplemented s)

/-- UMAAL: `UnimplementedInstruction` once its condition passes (42_wide_misc_multiply.md R216). -/
def execUmaal (c : Cond) (_rdHi _rdLo _rs _rm : Reg) (s : State) : Out := whenPassed c s (unimplemented s)

/-- UMULL: `UnimplementedInstruction` once its condition passes (42_wide_misc_multiply.md R212). -/
def execUmull (c : Cond) (_sf : Bool) (_rdHi _rdLo _rs _rm : Reg) (s : State) : Out := whenPassed c s (unimplemented s)

/-- UMLAL: `UnimplementedInstruction` once its condition passes (42_wide_misc_multiply.md R213). -/
def execUmlal (c : Cond) (_sf : Bool) (_rdHi _rdLo _rs _rm : Reg) (s : State) : Out := whenPassed c s (unimplemented s)

/-- SMULL: `UnimplementedInstruction` once its condition passes (42_wide_misc_multiply.md R214). -/
def execSmull (c : Cond) (_sf : Bool) (_rdHi _rdLo _rs _rm : Reg) (s : State) : Out := whenPassed c s (unimplemented s)

/-- SMLAL: `UnimplementedInstruction` once its condition passes (42_wide_misc_multiply.md R215). -/
def execSmlal (c : Cond) (_sf : Bool) (_rdHi _rdLo _rs _rm : Reg) (s : State) : Out := whenPassed c s (unimplemented s)

end Sys2Proof.Machine
end

