-- ==== Sys2Proof/Machine/Dispatch.lean ====
section
/-! DEFINITION. The meaning of every instruction: one arm per constructor of `Instr`, in the order of the opcode
table. -/

namespace Sys2Proof.Machine

/-- What an instruction does (60_exceptions.md R446 from step 4 on): fetch has advanced the program counter and decode
has answered. -/
def exec (i : Instr) (s : State) : Host.Outcome State Fault Refusal :=
  match i with
  | .andImm c sf rn rd rot imm => Sys2Proof.Machine.execAndImm c sf rn rd rot imm s
  | .andReg c sf rn rd amount sh rm => Sys2Proof.Machine.execAndReg c sf rn rd amount sh rm s
  | .andRsr c sf rn rd rs sh rm => Sys2Proof.Machine.execAndRsr c sf rn rd rs sh rm s
  | .eorImm c sf rn rd rot imm => Sys2Proof.Machine.execEorImm c sf rn rd rot imm s
  | .eorReg c sf rn rd amount sh rm => Sys2Proof.Machine.execEorReg c sf rn rd amount sh rm s
  | .eorRsr c sf rn rd rs sh rm => Sys2Proof.Machine.execEorRsr c sf rn rd rs sh rm s
  | .subImm c sf rn rd rot imm => Sys2Proof.Machine.execSubImm c sf rn rd rot imm s
  | .subReg c sf rn rd amount sh rm => Sys2Proof.Machine.execSubReg c sf rn rd amount sh rm s
  | .subRsr c sf rn rd rs sh rm => Sys2Proof.Machine.execSubRsr c sf rn rd rs sh rm s
  | .rsbImm c sf rn rd rot imm => Sys2Proof.Machine.execRsbImm c sf rn rd rot imm s
  | .rsbReg c sf rn rd amount sh rm => Sys2Proof.Machine.execRsbReg c sf rn rd amount sh rm s
  | .rsbRsr c sf rn rd rs sh rm => Sys2Proof.Machine.execRsbRsr c sf rn rd rs sh rm s
  | .addImm c sf rn rd rot imm => Sys2Proof.Machine.execAddImm c sf rn rd rot imm s
  | .addReg c sf rn rd amount sh rm => Sys2Proof.Machine.execAddReg c sf rn rd amount sh rm s
  | .addRsr c sf rn rd rs sh rm => Sys2Proof.Machine.execAddRsr c sf rn rd rs sh rm s
  | .adcImm c sf rn rd rot imm => Sys2Proof.Machine.execAdcImm c sf rn rd rot imm s
  | .adcReg c sf rn rd amount sh rm => Sys2Proof.Machine.execAdcReg c sf rn rd amount sh rm s
  | .adcRsr c sf rn rd rs sh rm => Sys2Proof.Machine.execAdcRsr c sf rn rd rs sh rm s
  | .sbcImm c sf rn rd rot imm => Sys2Proof.Machine.execSbcImm c sf rn rd rot imm s
  | .sbcReg c sf rn rd amount sh rm => Sys2Proof.Machine.execSbcReg c sf rn rd amount sh rm s
  | .sbcRsr c sf rn rd rs sh rm => Sys2Proof.Machine.execSbcRsr c sf rn rd rs sh rm s
  | .rscImm c sf rn rd rot imm => Sys2Proof.Machine.execRscImm c sf rn rd rot imm s
  | .rscReg c sf rn rd amount sh rm => Sys2Proof.Machine.execRscReg c sf rn rd amount sh rm s
  | .rscRsr c sf rn rd rs sh rm => Sys2Proof.Machine.execRscRsr c sf rn rd rs sh rm s
  | .tstImm c rn rd rot imm => Sys2Proof.Machine.execTstImm c rn rd rot imm s
  | .tstReg c rn rd amount sh rm => Sys2Proof.Machine.execTstReg c rn rd amount sh rm s
  | .tstRsr c rn rd rs sh rm => Sys2Proof.Machine.execTstRsr c rn rd rs sh rm s
  | .teqImm c rn rd rot imm => Sys2Proof.Machine.execTeqImm c rn rd rot imm s
  | .teqReg c rn rd amount sh rm => Sys2Proof.Machine.execTeqReg c rn rd amount sh rm s
  | .teqRsr c rn rd rs sh rm => Sys2Proof.Machine.execTeqRsr c rn rd rs sh rm s
  | .cmpImm c rn rd rot imm => Sys2Proof.Machine.execCmpImm c rn rd rot imm s
  | .cmpReg c rn rd amount sh rm => Sys2Proof.Machine.execCmpReg c rn rd amount sh rm s
  | .cmpRsr c rn rd rs sh rm => Sys2Proof.Machine.execCmpRsr c rn rd rs sh rm s
  | .cmnImm c rn rd rot imm => Sys2Proof.Machine.execCmnImm c rn rd rot imm s
  | .cmnReg c rn rd amount sh rm => Sys2Proof.Machine.execCmnReg c rn rd amount sh rm s
  | .cmnRsr c rn rd rs sh rm => Sys2Proof.Machine.execCmnRsr c rn rd rs sh rm s
  | .orrImm c sf rn rd rot imm => Sys2Proof.Machine.execOrrImm c sf rn rd rot imm s
  | .orrReg c sf rn rd amount sh rm => Sys2Proof.Machine.execOrrReg c sf rn rd amount sh rm s
  | .orrRsr c sf rn rd rs sh rm => Sys2Proof.Machine.execOrrRsr c sf rn rd rs sh rm s
  | .movImm c sf rn rd rot imm => Sys2Proof.Machine.execMovImm c sf rn rd rot imm s
  | .movReg c sf rn rd amount sh rm => Sys2Proof.Machine.execMovReg c sf rn rd amount sh rm s
  | .movRsr c sf rn rd rs sh rm => Sys2Proof.Machine.execMovRsr c sf rn rd rs sh rm s
  | .bicImm c sf rn rd rot imm => Sys2Proof.Machine.execBicImm c sf rn rd rot imm s
  | .bicReg c sf rn rd amount sh rm => Sys2Proof.Machine.execBicReg c sf rn rd amount sh rm s
  | .bicRsr c sf rn rd rs sh rm => Sys2Proof.Machine.execBicRsr c sf rn rd rs sh rm s
  | .mvnImm c sf rn rd rot imm => Sys2Proof.Machine.execMvnImm c sf rn rd rot imm s
  | .mvnReg c sf rn rd amount sh rm => Sys2Proof.Machine.execMvnReg c sf rn rd amount sh rm s
  | .mvnRsr c sf rn rd rs sh rm => Sys2Proof.Machine.execMvnRsr c sf rn rd rs sh rm s
  | .mrs c saved rd => Sys2Proof.Machine.execMrs c saved rd s
  | .msrReg c saved mask rm => Sys2Proof.Machine.execMsrReg c saved mask rm s
  | .msrImm c saved mask rot imm => Sys2Proof.Machine.execMsrImm c saved mask rot imm s
  | .bx c rm => Sys2Proof.Machine.execBx c rm s
  | .bxj c rm => Sys2Proof.Machine.execBxj c rm s
  | .blxReg c rm => Sys2Proof.Machine.execBlxReg c rm s
  | .clz c rd rm => Sys2Proof.Machine.execClz c rd rm s
  | .qadd c rn rd rm => Sys2Proof.Machine.execQadd c rn rd rm s
  | .qsub c rn rd rm => Sys2Proof.Machine.execQsub c rn rd rm s
  | .qdadd c rn rd rm => Sys2Proof.Machine.execQdadd c rn rd rm s
  | .qdsub c rn rd rm => Sys2Proof.Machine.execQdsub c rn rd rm s
  | .bkpt c imm12 imm4 => Sys2Proof.Machine.execBkpt c imm12 imm4 s
  | .smlaXY c rd rn rs y x rm => Sys2Proof.Machine.execSmlaXY c rd rn rs y x rm s
  | .smlawSmulw c rd rn rs y x rm => Sys2Proof.Machine.execSmlawSmulw c rd rn rs y x rm s
  | .smlalXY c rdHi rdLo rs y x rm => Sys2Proof.Machine.execSmlalXY c rdHi rdLo rs y x rm s
  | .smulXY c rd ignored rs y x rm => Sys2Proof.Machine.execSmulXY c rd ignored rs y x rm s
  | .mul c sf rd rs rm => Sys2Proof.Machine.execMul c sf rd rs rm s
  | .mla c sf rd rn rs rm => Sys2Proof.Machine.execMla c sf rd rn rs rm s
  | .umaal c rdHi rdLo rs rm => Sys2Proof.Machine.execUmaal c rdHi rdLo rs rm s
  | .umull c sf rdHi rdLo rs rm => Sys2Proof.Machine.execUmull c sf rdHi rdLo rs rm s
  | .umlal c sf rdHi rdLo rs rm => Sys2Proof.Machine.execUmlal c sf rdHi rdLo rs rm s
  | .smull c sf rdHi rdLo rs rm => Sys2Proof.Machine.execSmull c sf rdHi rdLo rs rm s
  | .smlal c sf rdHi rdLo rs rm => Sys2Proof.Machine.execSmlal c sf rdHi rdLo rs rm s
  | .swp c rn rd rm => Sys2Proof.Machine.execSwp c rn rd rm s
  | .swpb c rn rd rm => Sys2Proof.Machine.execSwpb c rn rd rm s
  | .strex c rn rd rm => Sys2Proof.Machine.execStrex c rn rd rm s
  | .ldrex c rn rd => Sys2Proof.Machine.execLdrex c rn rd s
  | .strhImm c p u w rn rd immH immL => Sys2Proof.Machine.execStrhImm c p u w rn rd immH immL s
  | .strhReg c p u w rn rd rm => Sys2Proof.Machine.execStrhReg c p u w rn rd rm s
  | .ldrdImm c p u w rn rd immH immL => Sys2Proof.Machine.execLdrdImm c p u w rn rd immH immL s
  | .ldrdReg c p u w rn rd rm => Sys2Proof.Machine.execLdrdReg c p u w rn rd rm s
  | .strdImm c p u w rn rd immH immL => Sys2Proof.Machine.execStrdImm c p u w rn rd immH immL s
  | .strdReg c p u w rn rd rm => Sys2Proof.Machine.execStrdReg c p u w rn rd rm s
  | .ldrhImm c p u w rn rd immH immL => Sys2Proof.Machine.execLdrhImm c p u w rn rd immH immL s
  | .ldrhReg c p u w rn rd rm => Sys2Proof.Machine.execLdrhReg c p u w rn rd rm s
  | .ldrsbImm c p u w rn rd immH immL => Sys2Proof.Machine.execLdrsbImm c p u w rn rd immH immL s
  | .ldrsbReg c p u w rn rd rm => Sys2Proof.Machine.execLdrsbReg c p u w rn rd rm s
  | .ldrshImm c p u w rn rd immH immL => Sys2Proof.Machine.execLdrshImm c p u w rn rd immH immL s
  | .ldrshReg c p u w rn rd rm => Sys2Proof.Machine.execLdrshReg c p u w rn rd rm s
  | .strImm c p u w rn rd imm12 => Sys2Proof.Machine.execStrImm c p u w rn rd imm12 s
  | .strReg c p u w rn rd amount sh rm => Sys2Proof.Machine.execStrReg c p u w rn rd amount sh rm s
  | .strtImm c u rn rd imm12 => Sys2Proof.Machine.execStrtImm c u rn rd imm12 s
  | .strtReg c u rn rd amount sh rm => Sys2Proof.Machine.execStrtReg c u rn rd amount sh rm s
  | .ldrImm c p u w rn rd imm12 => Sys2Proof.Machine.execLdrImm c p u w rn rd imm12 s
  | .ldrReg c p u w rn rd amount sh rm => Sys2Proof.Machine.execLdrReg c p u w rn rd amount sh rm s
  | .ldrtImm c u rn rd imm12 => Sys2Proof.Machine.execLdrtImm c u rn rd imm12 s
  | .ldrtReg c u rn rd amount sh rm => Sys2Proof.Machine.execLdrtReg c u rn rd amount sh rm s
  | .strbImm c p u w rn rd imm12 => Sys2Proof.Machine.execStrbImm c p u w rn rd imm12 s
  | .strbReg c p u w rn rd amount sh rm => Sys2Proof.Machine.execStrbReg c p u w rn rd amount sh rm s
  | .strbtImm c u rn rd imm12 => Sys2Proof.Machine.execStrbtImm c u rn rd imm12 s
  | .strbtReg c u rn rd amount sh rm => Sys2Proof.Machine.execStrbtReg c u rn rd amount sh rm s
  | .ldrbImm c p u w rn rd imm12 => Sys2Proof.Machine.execLdrbImm c p u w rn rd imm12 s
  | .ldrbReg c p u w rn rd amount sh rm => Sys2Proof.Machine.execLdrbReg c p u w rn rd amount sh rm s
  | .ldrbtImm c u rn rd imm12 => Sys2Proof.Machine.execLdrbtImm c u rn rd imm12 s
  | .ldrbtReg c u rn rd amount sh rm => Sys2Proof.Machine.execLdrbtReg c u rn rd amount sh rm s
  | .media c hi lo => Sys2Proof.Machine.execMedia c hi lo s
  | .stm c p u sb w rn list => Sys2Proof.Machine.execStm c p u sb w rn list s
  | .ldm c p u sb w rn list => Sys2Proof.Machine.execLdm c p u sb w rn list s
  | .b c imm24 => Sys2Proof.Machine.execB c imm24 s
  | .bl c imm24 => Sys2Proof.Machine.execBl c imm24 s
  | .copMem c bits => Sys2Proof.Machine.execCopMem c bits s
  | .copReg c bits => Sys2Proof.Machine.execCopReg c bits s
  | .swiTrap c => Sys2Proof.Machine.execSwiTrap c s
  | .swiOther c imm24 => Sys2Proof.Machine.execSwiOther c imm24 s
  | .cLslImm imm5 rm rd => Sys2Proof.Machine.execCLslImm imm5 rm rd s
  | .cLsrImm imm5 rm rd => Sys2Proof.Machine.execCLsrImm imm5 rm rd s
  | .cAsrImm imm5 rm rd => Sys2Proof.Machine.execCAsrImm imm5 rm rd s
  | .cAddReg rm rn rd => Sys2Proof.Machine.execCAddReg rm rn rd s
  | .cSubReg rm rn rd => Sys2Proof.Machine.execCSubReg rm rn rd s
  | .cAddImm3 imm3 rn rd => Sys2Proof.Machine.execCAddImm3 imm3 rn rd s
  | .cSubImm3 imm3 rn rd => Sys2Proof.Machine.execCSubImm3 imm3 rn rd s
  | .cMovImm8 rd imm8 => Sys2Proof.Machine.execCMovImm8 rd imm8 s
  | .cCmpImm8 rd imm8 => Sys2Proof.Machine.execCCmpImm8 rd imm8 s
  | .cAddImm8 rd imm8 => Sys2Proof.Machine.execCAddImm8 rd imm8 s
  | .cSubImm8 rd imm8 => Sys2Proof.Machine.execCSubImm8 rd imm8 s
  | .cAnd rm rd => Sys2Proof.Machine.execCAnd rm rd s
  | .cEor rm rd => Sys2Proof.Machine.execCEor rm rd s
  | .cLsl rm rd => Sys2Proof.Machine.execCLsl rm rd s
  | .cLsr rm rd => Sys2Proof.Machine.execCLsr rm rd s
  | .cAsr rm rd => Sys2Proof.Machine.execCAsr rm rd s
  | .cAdc rm rd => Sys2Proof.Machine.execCAdc rm rd s
  | .cSbc rm rd => Sys2Proof.Machine.execCSbc rm rd s
  | .cRor rm rd => Sys2Proof.Machine.execCRor rm rd s
  | .cTst rm rd => Sys2Proof.Machine.execCTst rm rd s
  | .cNeg rm rd => Sys2Proof.Machine.execCNeg rm rd s
  | .cCmp rm rd => Sys2Proof.Machine.execCCmp rm rd s
  | .cCmn rm rd => Sys2Proof.Machine.execCCmn rm rd s
  | .cOrr rm rd => Sys2Proof.Machine.execCOrr rm rd s
  | .cMul rm rd => Sys2Proof.Machine.execCMul rm rd s
  | .cBic rm rd => Sys2Proof.Machine.execCBic rm rd s
  | .cMvn rm rd => Sys2Proof.Machine.execCMvn rm rd s
  | .cAddHi rm rd => Sys2Proof.Machine.execCAddHi rm rd s
  | .cCmpHi rm rd => Sys2Proof.Machine.execCCmpHi rm rd s
  | .cMovHi rm rd => Sys2Proof.Machine.execCMovHi rm rd s
  | .cBx rm => Sys2Proof.Machine.execCBx rm s
  | .cBlxReg rm => Sys2Proof.Machine.execCBlxReg rm s
  | .cLdrLit rd imm8 => Sys2Proof.Machine.execCLdrLit rd imm8 s
  | .cStrReg rm rn rd => Sys2Proof.Machine.execCStrReg rm rn rd s
  | .cStrhReg rm rn rd => Sys2Proof.Machine.execCStrhReg rm rn rd s
  | .cStrbReg rm rn rd => Sys2Proof.Machine.execCStrbReg rm rn rd s
  | .cLdrsbReg rm rn rd => Sys2Proof.Machine.execCLdrsbReg rm rn rd s
  | .cLdrReg rm rn rd => Sys2Proof.Machine.execCLdrReg rm rn rd s
  | .cLdrhReg rm rn rd => Sys2Proof.Machine.execCLdrhReg rm rn rd s
  | .cLdrbReg rm rn rd => Sys2Proof.Machine.execCLdrbReg rm rn rd s
  | .cLdrshReg rm rn rd => Sys2Proof.Machine.execCLdrshReg rm rn rd s
  | .cStrImm imm5 rn rd => Sys2Proof.Machine.execCStrImm imm5 rn rd s
  | .cLdrImm imm5 rn rd => Sys2Proof.Machine.execCLdrImm imm5 rn rd s
  | .cStrbImm imm5 rn rd => Sys2Proof.Machine.execCStrbImm imm5 rn rd s
  | .cLdrbImm imm5 rn rd => Sys2Proof.Machine.execCLdrbImm imm5 rn rd s
  | .cStrhImm imm5 rn rd => Sys2Proof.Machine.execCStrhImm imm5 rn rd s
  | .cLdrhImm imm5 rn rd => Sys2Proof.Machine.execCLdrhImm imm5 rn rd s
  | .cStrSp rd imm8 => Sys2Proof.Machine.execCStrSp rd imm8 s
  | .cLdrSp rd imm8 => Sys2Proof.Machine.execCLdrSp rd imm8 s
  | .cAddPc rd imm8 => Sys2Proof.Machine.execCAddPc rd imm8 s
  | .cAddSp rd imm8 => Sys2Proof.Machine.execCAddSp rd imm8 s
  | .cAddSpImm imm7 => Sys2Proof.Machine.execCAddSpImm imm7 s
  | .cSubSpImm imm7 => Sys2Proof.Machine.execCSubSpImm imm7 s
  | .cSxth rm rd => Sys2Proof.Machine.execCSxth rm rd s
  | .cSxtb rm rd => Sys2Proof.Machine.execCSxtb rm rd s
  | .cUxth rm rd => Sys2Proof.Machine.execCUxth rm rd s
  | .cUxtb rm rd => Sys2Proof.Machine.execCUxtb rm rd s
  | .cPush lr list => Sys2Proof.Machine.execCPush lr list s
  | .cPop pc list => Sys2Proof.Machine.execCPop pc list s
  | .cSetend e => Sys2Proof.Machine.execCSetend e s
  | .cCps imod aBit iBit fBit => Sys2Proof.Machine.execCCps imod aBit iBit fBit s
  | .cRev rm rd => Sys2Proof.Machine.execCRev rm rd s
  | .cRev16 rm rd => Sys2Proof.Machine.execCRev16 rm rd s
  | .cRevUnalloc rm rd => Sys2Proof.Machine.execCRevUnalloc rm rd s
  | .cRevsh rm rd => Sys2Proof.Machine.execCRevsh rm rd s
  | .cBkpt imm8 => Sys2Proof.Machine.execCBkpt imm8 s
  | .cStmia rn list => Sys2Proof.Machine.execCStmia rn list s
  | .cLdmia rn list => Sys2Proof.Machine.execCLdmia rn list s
  | .cBcond c imm8 => Sys2Proof.Machine.execCBcond c imm8 s
  | .cBcond1110 imm8 => Sys2Proof.Machine.execCBcond1110 imm8 s
  | .cSwiTrap => Sys2Proof.Machine.execCSwiTrap s
  | .cSwiOther imm8 => Sys2Proof.Machine.execCSwiOther imm8 s
  | .cB imm11 => Sys2Proof.Machine.execCB imm11 s
  | .cBlxSuffix imm11 => Sys2Proof.Machine.execCBlxSuffix imm11 s
  | .cBlPrefix imm11 => Sys2Proof.Machine.execCBlPrefix imm11 s
  | .cBlSuffix imm11 => Sys2Proof.Machine.execCBlSuffix imm11 s

end Sys2Proof.Machine
end

