-- ==== Sys2Proof/Machine/Step.lean ====
section
/-! DEFINITION. One step of the active engine (00_scope.md R9, 60_exceptions.md R446), and the placing of one
instruction where the next step fetches. -/

namespace Sys2Proof.Machine

/-- The step after the fetch: the word enters the current-instruction register, the program counter advances, and the
decoded instruction is executed (10_state.md R24, R31). -/
def execFetched (w : Word) (s : State) : Out :=
  match decode (codeOfFetched s.mode w) with
  | .ok i => exec i (advance s w)
  | .error e => execUndecoded e (advance s w)

/-- One step (00_scope.md R9). A fault at fetch leaves the program counter where it was (60_exceptions.md R444); a
machine that no longer runs has no move (10_state.md R32). A mode switch is done within the step that asks for it
(log entry 10). -/
def step (s : State) : Host.Outcome State Fault Refusal :=
  match s.run with
  | .running =>
    match fetch s with
    | .error k => raise k s
    | .ok w => execFetched w s
  | _ => .fault (.notRunning s)

/-! ## Placing an instruction -/

/-- Whether a fetch at the program counter succeeds. -/
def canFetch (s : State) : Bool :=
  match fetch s with
  | .ok _ => true
  | .error _ => false

/-- A segment table whose code segment is exactly one instruction of a mode, with an empty bss segment after it so
that the derived heap does not overlap it. -/
def codeAt (t : SegmentTable) (pc : Nat) (m : Mode) : SegmentTable :=
  { t with
    code := { base := pc, size := m.instrWidth.bytes }
    bss := { base := pc + m.instrWidth.bytes, size := 0 } }

/-- The state with one instruction of the opcode table stored where `step` fetches next. It stands for the Loader
(70_reset_and_hazards.md R481, log entry 3): the mode becomes the one whose instructions have `nbits` bits, the run
state Running, and where the program counter lies in no code segment the segment table gets one there. -/
def State.withFetchWord (s : State) (nbits w : Nat) : State :=
  let m := modeOfLength nbits
  let selected := (s.setMode m).setRun .running
  let loaded := if canFetch selected then selected else selected.setSegs (codeAt s.segs s.pc.toNat m)
  loaded.setMem (memStore s.mem s.pc.toNat (BitVec.ofNat 32 w) m.instrWidth)

end Sys2Proof.Machine
end

