-- ==== Sys2Proof/Machine/Launch.lean ====
section
/-! DEFINITION. The launch of a run (70_reset_and_hazards.md R480 to R482): what the Loader and the design hand over,
the well-formedness of the segment table (20_memory.md R52), and the state the first fetch sees. -/

namespace Sys2Proof.Machine

/-- Every OPEN parameter of a run (00_scope.md R6). -/
structure Launch where
  /-- The Loader's descriptors of code, rodata, data and bss. -/
  segs : SegmentTable
  /-- `STACK_TOP`, `STACK_SIZE`, `BIDIR_SWITCH`. -/
  params : Params
  /-- The image bytes; only those in code, rodata and data are loaded. -/
  image : List Host.Cell
  /-- `MEM_INIT`; only those in the heap and the stack count. -/
  memInit : List Host.Cell
  /-- `ENTRY`. -/
  entry : Word
  /-- `RESET_MODE`. -/
  resetMode : Mode
  /-- `REG_RESET`; slots 13 and 15 are not used. -/
  regReset : Vector Word 16
  /-- `STATUS_RESET`. -/
  statusReset : Word
  /-- The replies of `HOST_SHIM`, one per trap (log entry 8). -/
  shim : List ShimReply
deriving DecidableEq, Repr

/-- Two segments share no address (20_memory.md R51, R52). -/
def segDisjoint (g h : Segment) : Bool :=
  g.size == 0 || h.size == 0 || decide (segEnd g ≤ h.base) || decide (segEnd h ≤ g.base)

/-- The six segments of a table. -/
def allSegments (t : SegmentTable) (p : Params) : List Segment :=
  [segmentOf t p .code, segmentOf t p .rodata, segmentOf t p .data, segmentOf t p .bss, segmentOf t p .heap,
    segmentOf t p .stack]

/-- No two of a list of segments share an address. -/
def allDisjoint : List Segment → Bool
  | [] => true
  | g :: rest => rest.all (segDisjoint g) && allDisjoint rest

/-- The constraints on the stack constants (20_memory.md R52 item 4, 00_scope.md R6). -/
def stackWf (p : Params) : Bool :=
  p.stackTop.toNat % 4 == 0 && p.stackSize % 4 == 0 && decide (0 < p.stackSize) &&
    decide (p.stackSize ≤ p.stackTop.toNat)

/-- A well-formed segment table (20_memory.md R51, R52). -/
def tableWf (t : SegmentTable) (p : Params) : Bool :=
  stackWf p && decide (segEnd t.bss ≤ stackLow p) && allDisjoint (allSegments t p) &&
    (allSegments t p).all fun g => decide (segEnd g ≤ 2 ^ 32)

/-- A cell lies in a segment of one of some kinds. -/
def cellIn (t : SegmentTable) (p : Params) (kinds : List SegmentKind) (cell : Host.Cell) : Bool :=
  kinds.any fun k => segOwns (segmentOf t p k) cell.1

/-- Bytes written one after another. -/
def loadCells : List Host.Cell → Memory → Memory
  | [], m => m
  | (a, v) :: rest, m => loadCells rest (memPut m a v)

/-- Memory at the hand-over (20_memory.md R56): the image, a bss of zeros, and `MEM_INIT`. -/
def launchMem (l : Launch) : Memory :=
  loadCells (l.image.filter (cellIn l.segs l.params [.code, .rodata, .data]))
    (loadCells (l.memInit.filter (cellIn l.segs l.params [.heap, .stack])) [])

/-- The state after reset for the parameters of a launch (10_state.md R35, 70_reset_and_hazards.md R480). -/
def launchState (l : Launch) : State :=
  { regs := (l.regReset.set spReg.toNat l.params.stackTop).set pcReg.toNat l.entry
    status := l.statusReset
    mode := l.resetMode
    instr := 0#32
    iaddr := 0#32
    run := .running
    segs := l.segs
    params := l.params
    mem := launchMem l
    shim := l.shim
    shimCalls := 0 }

/-- A run is launched, or refused where its segment table is malformed (20_memory.md R52, 70_reset_and_hazards.md
R481). -/
def launch (l : Launch) : Out :=
  if tableWf l.segs l.params then .next (launchState l) else .refused .malformedLaunch

/-- The launch that gives `State.reset`: no image and the values of log entries 2 to 8. -/
def resetLaunch : Launch :=
  { segs := noImage
    params := resetParams
    image := []
    memInit := []
    entry := 0#32
    resetMode := .wide
    regReset := Vector.replicate 16 0#32
    statusReset := 0#32
    shim := [] }

end Sys2Proof.Machine
end

