-- ==== Sys2Proof/Machine/Claims.lean ====
section
/-! DEFINITION. The terms the statements about all instructions use: the condition an instruction carries, what it may
write, which words are refused and which fault, each read from the tables of the spec and not from the meanings. -/

namespace Sys2Proof.Machine

/-! ## Conditions -/

/-- The condition an instruction carries (40_cond_shifter_alu.md R132): every wide one, and the compact conditional
branch. -/
def condOf : Instr → Option Cond
  | .andImm c _ _ _ _ _ | .andReg c _ _ _ _ _ _ | .andRsr c _ _ _ _ _ _ | .eorImm c _ _ _ _ _
  | .eorReg c _ _ _ _ _ _ | .eorRsr c _ _ _ _ _ _ | .subImm c _ _ _ _ _ | .subReg c _ _ _ _ _ _
  | .subRsr c _ _ _ _ _ _ | .rsbImm c _ _ _ _ _ | .rsbReg c _ _ _ _ _ _ | .rsbRsr c _ _ _ _ _ _
  | .addImm c _ _ _ _ _ | .addReg c _ _ _ _ _ _ | .addRsr c _ _ _ _ _ _ | .adcImm c _ _ _ _ _
  | .adcReg c _ _ _ _ _ _ | .adcRsr c _ _ _ _ _ _ | .sbcImm c _ _ _ _ _ | .sbcReg c _ _ _ _ _ _
  | .sbcRsr c _ _ _ _ _ _ | .rscImm c _ _ _ _ _ | .rscReg c _ _ _ _ _ _ | .rscRsr c _ _ _ _ _ _
  | .tstImm c _ _ _ _ | .tstReg c _ _ _ _ _ | .tstRsr c _ _ _ _ _ | .teqImm c _ _ _ _ | .teqReg c _ _ _ _ _
  | .teqRsr c _ _ _ _ _ | .cmpImm c _ _ _ _ | .cmpReg c _ _ _ _ _ | .cmpRsr c _ _ _ _ _ | .cmnImm c _ _ _ _
  | .cmnReg c _ _ _ _ _ | .cmnRsr c _ _ _ _ _ | .orrImm c _ _ _ _ _ | .orrReg c _ _ _ _ _ _
  | .orrRsr c _ _ _ _ _ _ | .movImm c _ _ _ _ _ | .movReg c _ _ _ _ _ _ | .movRsr c _ _ _ _ _ _
  | .bicImm c _ _ _ _ _ | .bicReg c _ _ _ _ _ _ | .bicRsr c _ _ _ _ _ _ | .mvnImm c _ _ _ _ _
  | .mvnReg c _ _ _ _ _ _ | .mvnRsr c _ _ _ _ _ _ | .mrs c _ _ | .msrReg c _ _ _ | .msrImm c _ _ _ _ | .bx c _
  | .bxj c _ | .blxReg c _ | .clz c _ _ | .qadd c _ _ _ | .qsub c _ _ _ | .qdadd c _ _ _ | .qdsub c _ _ _
  | .bkpt c _ _ | .smlaXY c _ _ _ _ _ _ | .smlawSmulw c _ _ _ _ _ _ | .smlalXY c _ _ _ _ _ _
  | .smulXY c _ _ _ _ _ _ | .mul c _ _ _ _ | .mla c _ _ _ _ _ | .umaal c _ _ _ _ | .umull c _ _ _ _ _
  | .umlal c _ _ _ _ _ | .smull c _ _ _ _ _ | .smlal c _ _ _ _ _ | .swp c _ _ _ | .swpb c _ _ _ | .strex c _ _ _
  | .ldrex c _ _ | .strhImm c _ _ _ _ _ _ _ | .strhReg c _ _ _ _ _ _ | .ldrdImm c _ _ _ _ _ _ _
  | .ldrdReg c _ _ _ _ _ _ | .strdImm c _ _ _ _ _ _ _ | .strdReg c _ _ _ _ _ _ | .ldrhImm c _ _ _ _ _ _ _
  | .ldrhReg c _ _ _ _ _ _ | .ldrsbImm c _ _ _ _ _ _ _ | .ldrsbReg c _ _ _ _ _ _ | .ldrshImm c _ _ _ _ _ _ _
  | .ldrshReg c _ _ _ _ _ _ | .strImm c _ _ _ _ _ _ | .strReg c _ _ _ _ _ _ _ _ | .strtImm c _ _ _ _
  | .strtReg c _ _ _ _ _ _ | .ldrImm c _ _ _ _ _ _ | .ldrReg c _ _ _ _ _ _ _ _ | .ldrtImm c _ _ _ _
  | .ldrtReg c _ _ _ _ _ _ | .strbImm c _ _ _ _ _ _ | .strbReg c _ _ _ _ _ _ _ _ | .strbtImm c _ _ _ _
  | .strbtReg c _ _ _ _ _ _ | .ldrbImm c _ _ _ _ _ _ | .ldrbReg c _ _ _ _ _ _ _ _ | .ldrbtImm c _ _ _ _
  | .ldrbtReg c _ _ _ _ _ _ | .media c _ _ | .stm c _ _ _ _ _ _ | .ldm c _ _ _ _ _ _ | .b c _ | .bl c _
  | .copMem c _ | .copReg c _ | .swiTrap c | .swiOther c _ | .cBcond c _ => some c
  | _ => none

/-- The instruction executes: it carries no condition, or one that passes (40_cond_shifter_alu.md R132). -/
def conditionPasses (i : Instr) (s : State) : Bool :=
  match condOf i with
  | some c => condPassed c s
  | none => true

/-! ## The refused words and the faulting words -/

/-- Exactly the register combinations of the table of 60_exceptions.md R463. -/
def refusedCombination : Instr → Bool
  | .andRsr _ sf rn rd rs _ rm | .eorRsr _ sf rn rd rs _ rm | .subRsr _ sf rn rd rs _ rm
  | .rsbRsr _ sf rn rd rs _ rm | .addRsr _ sf rn rd rs _ rm | .adcRsr _ sf rn rd rs _ rm
  | .sbcRsr _ sf rn rd rs _ rm | .rscRsr _ sf rn rd rs _ rm => rm == pcReg || rs == pcReg || rn == pcReg || (rd == pcReg && !sf)
  | .tstRsr _ rn _ rs _ rm | .teqRsr _ rn _ rs _ rm | .cmpRsr _ rn _ rs _ rm | .cmnRsr _ rn _ rs _ rm => rm == pcReg || rs == pcReg || rn == pcReg
  | .orrRsr _ sf rn rd rs _ rm => rm == pcReg || rs == pcReg || rn == pcReg || (rd == pcReg && !sf)
  | .movRsr _ sf _ rd rs _ rm => rm == pcReg || rs == pcReg || (rd == pcReg && !sf)
  | .bicRsr _ sf rn rd rs _ rm => rm == pcReg || rs == pcReg || rn == pcReg || (rd == pcReg && !sf)
  | .mvnRsr _ sf _ rd rs _ rm => rm == pcReg || rs == pcReg || (rd == pcReg && !sf)
  | .mrs _ _ rd => rd == pcReg
  | .blxReg _ rm => rm == pcReg
  | .clz _ rd rm => rd == pcReg || rm == pcReg
  | .mul _ _ rd rs rm => rd == pcReg || rm == pcReg || rs == pcReg
  | .strhImm _ p _ w rn rd _ _ => ((!p || w) && (rn == pcReg || rn == rd)) || rd == pcReg
  | .strhReg _ p _ w rn rd rm => rm == pcReg || ((!p || w) && (rn == pcReg || rn == rd)) || rd == pcReg
  | .ldrhImm _ p _ w rn rd _ _ => ((!p || w) && (rn == pcReg || rn == rd)) || rd == pcReg
  | .ldrhReg _ p _ w rn rd rm => rm == pcReg || ((!p || w) && (rn == pcReg || rn == rd)) || rd == pcReg
  | .ldrsbImm _ p _ w rn rd _ _ => ((!p || w) && (rn == pcReg || rn == rd)) || rd == pcReg
  | .ldrsbReg _ p _ w rn rd rm | .ldrshReg _ p _ w rn rd rm => rm == pcReg || ((!p || w) && (rn == pcReg || rn == rd)) || rd == pcReg
  | .strImm _ p _ w rn rd _ => ((!p || w) && (rn == pcReg || rn == rd))
  | .strReg _ p _ w rn rd _ _ rm => rm == pcReg || ((!p || w) && (rn == pcReg || rn == rd))
  | .strtImm _ _ rn rd _ => rn == pcReg || rn == rd || rd == pcReg
  | .strtReg _ _ rn rd _ _ rm => rm == pcReg || rn == pcReg || rn == rd || rd == pcReg
  | .ldrImm _ p _ w rn rd _ => ((!p || w) && (rn == pcReg || rn == rd))
  | .ldrReg _ p _ w rn rd _ _ rm => rm == pcReg || ((!p || w) && (rn == pcReg || rn == rd))
  | .ldrtImm _ _ rn rd _ => rn == pcReg || rn == rd || rd == pcReg
  | .ldrtReg _ _ rn rd _ _ rm => rm == pcReg || rn == pcReg || rn == rd || rd == pcReg
  | .strbImm _ p _ w rn rd _ => ((!p || w) && (rn == pcReg || rn == rd)) || rd == pcReg
  | .strbReg _ p _ w rn rd _ _ rm => rm == pcReg || ((!p || w) && (rn == pcReg || rn == rd)) || rd == pcReg
  | .strbtImm _ _ rn rd _ => rn == pcReg || rn == rd || rd == pcReg
  | .strbtReg _ _ rn rd _ _ rm => rm == pcReg || rn == pcReg || rn == rd || rd == pcReg
  | .ldrbImm _ p _ w rn rd _ => ((!p || w) && (rn == pcReg || rn == rd)) || rd == pcReg
  | .ldrbReg _ p _ w rn rd _ _ rm => rm == pcReg || ((!p || w) && (rn == pcReg || rn == rd)) || rd == pcReg
  | .ldrbtImm _ _ rn rd _ => rn == pcReg || rn == rd || rd == pcReg
  | .ldrbtReg _ _ rn rd _ _ rm => rm == pcReg || rn == pcReg || rn == rd || rd == pcReg
  | .cBlxReg rm => rm == pcReg
  | _ => false

/-- The instructions that raise `UnimplementedInstruction` when they execute (60_exceptions.md R442). -/
def lacksImplementation : Instr → Bool
  | .andImm _ sf _ rd _ _ | .andReg _ sf _ rd _ _ _ | .andRsr _ sf _ rd _ _ _ | .eorImm _ sf _ rd _ _
  | .eorReg _ sf _ rd _ _ _ | .eorRsr _ sf _ rd _ _ _ | .subImm _ sf _ rd _ _ | .subReg _ sf _ rd _ _ _
  | .subRsr _ sf _ rd _ _ _ | .rsbImm _ sf _ rd _ _ | .rsbReg _ sf _ rd _ _ _ | .rsbRsr _ sf _ rd _ _ _
  | .addImm _ sf _ rd _ _ | .addReg _ sf _ rd _ _ _ | .addRsr _ sf _ rd _ _ _ | .adcImm _ sf _ rd _ _
  | .adcReg _ sf _ rd _ _ _ | .adcRsr _ sf _ rd _ _ _ | .sbcImm _ sf _ rd _ _ | .sbcReg _ sf _ rd _ _ _
  | .sbcRsr _ sf _ rd _ _ _ | .rscImm _ sf _ rd _ _ | .rscReg _ sf _ rd _ _ _ | .rscRsr _ sf _ rd _ _ _ => sf && rd == pcReg
  | .tstImm _ _ rd _ _ | .tstReg _ _ rd _ _ _ | .tstRsr _ _ rd _ _ _ | .teqImm _ _ rd _ _ | .teqReg _ _ rd _ _ _
  | .teqRsr _ _ rd _ _ _ | .cmpImm _ _ rd _ _ | .cmpReg _ _ rd _ _ _ | .cmpRsr _ _ rd _ _ _ | .cmnImm _ _ rd _ _
  | .cmnReg _ _ rd _ _ _ | .cmnRsr _ _ rd _ _ _ => rd == pcReg
  | .orrImm _ sf _ rd _ _ | .orrReg _ sf _ rd _ _ _ | .orrRsr _ sf _ rd _ _ _ | .movImm _ sf _ rd _ _
  | .movReg _ sf _ rd _ _ _ | .movRsr _ sf _ rd _ _ _ | .bicImm _ sf _ rd _ _ | .bicReg _ sf _ rd _ _ _
  | .bicRsr _ sf _ rd _ _ _ | .mvnImm _ sf _ rd _ _ | .mvnReg _ sf _ rd _ _ _ | .mvnRsr _ sf _ rd _ _ _ => sf && rd == pcReg
  | .mrs _ saved _ => saved
  | .msrReg _ _ _ _ | .msrImm _ _ _ _ _ | .bxj _ _ | .qadd _ _ _ _ | .qsub _ _ _ _ | .qdadd _ _ _ _
  | .qdsub _ _ _ _ | .bkpt _ _ _ | .smlaXY _ _ _ _ _ _ _ | .smlawSmulw _ _ _ _ _ _ _ | .smlalXY _ _ _ _ _ _ _
  | .smulXY _ _ _ _ _ _ _ | .mla _ _ _ _ _ _ | .umaal _ _ _ _ _ | .umull _ _ _ _ _ _ | .umlal _ _ _ _ _ _
  | .smull _ _ _ _ _ _ | .smlal _ _ _ _ _ _ | .swp _ _ _ _ | .swpb _ _ _ _ | .strex _ _ _ _ | .ldrex _ _ _
  | .ldrdImm _ _ _ _ _ _ _ _ | .ldrdReg _ _ _ _ _ _ _ | .strdImm _ _ _ _ _ _ _ _ | .strdReg _ _ _ _ _ _ _
  | .ldrshImm _ _ _ _ _ _ _ _ | .media _ _ _ | .stm _ _ _ _ _ _ _ | .ldm _ _ _ _ _ _ _ | .copMem _ _
  | .copReg _ _ | .cSetend _ | .cCps _ _ _ _ | .cBkpt _ | .cSwiOther _ | .cBlxSuffix _ => true
  | _ => false

/-- The instructions that raise `UndefinedInstruction`: two compact rows (60_exceptions.md R442). -/
def isUndefinedRow : Instr → Bool
  | .cRevUnalloc _ _ | .cBcond1110 _ => true
  | _ => false

/-! ## What an instruction may write -/

/-- Which flags an instruction writes: the rows of the table of 10_state.md R28. -/
inductive FlagEffect where
  | none
  | nz
  | nzc
  | nzcv
deriving DecidableEq, Repr

/-- The row of the table of 10_state.md R28 an instruction belongs to. -/
def flagEffect : Instr → FlagEffect
  | .andImm _ sf _ _ _ _ | .andReg _ sf _ _ _ _ _ | .andRsr _ sf _ _ _ _ _ | .eorImm _ sf _ _ _ _
  | .eorReg _ sf _ _ _ _ _ | .eorRsr _ sf _ _ _ _ _ => if sf then .nzc else .none
  | .subImm _ sf _ _ _ _ | .subReg _ sf _ _ _ _ _ | .subRsr _ sf _ _ _ _ _ | .rsbImm _ sf _ _ _ _
  | .rsbReg _ sf _ _ _ _ _ | .rsbRsr _ sf _ _ _ _ _ | .addImm _ sf _ _ _ _ | .addReg _ sf _ _ _ _ _
  | .addRsr _ sf _ _ _ _ _ | .adcImm _ sf _ _ _ _ | .adcReg _ sf _ _ _ _ _ | .adcRsr _ sf _ _ _ _ _
  | .sbcImm _ sf _ _ _ _ | .sbcReg _ sf _ _ _ _ _ | .sbcRsr _ sf _ _ _ _ _ | .rscImm _ sf _ _ _ _
  | .rscReg _ sf _ _ _ _ _ | .rscRsr _ sf _ _ _ _ _ => if sf then .nzcv else .none
  | .tstImm _ _ _ _ _ | .tstReg _ _ _ _ _ _ | .tstRsr _ _ _ _ _ _ | .teqImm _ _ _ _ _ | .teqReg _ _ _ _ _ _
  | .teqRsr _ _ _ _ _ _ => .nzc
  | .cmpImm _ _ _ _ _ | .cmpReg _ _ _ _ _ _ | .cmpRsr _ _ _ _ _ _ | .cmnImm _ _ _ _ _ | .cmnReg _ _ _ _ _ _
  | .cmnRsr _ _ _ _ _ _ => .nzcv
  | .orrImm _ sf _ _ _ _ | .orrReg _ sf _ _ _ _ _ | .orrRsr _ sf _ _ _ _ _ | .movImm _ sf _ _ _ _
  | .movReg _ sf _ _ _ _ _ | .movRsr _ sf _ _ _ _ _ | .bicImm _ sf _ _ _ _ | .bicReg _ sf _ _ _ _ _
  | .bicRsr _ sf _ _ _ _ _ | .mvnImm _ sf _ _ _ _ | .mvnReg _ sf _ _ _ _ _ | .mvnRsr _ sf _ _ _ _ _ => if sf then .nzc else .none
  | .mul _ sf _ _ _ => if sf then .nz else .none
  | .cLslImm _ _ _ | .cLsrImm _ _ _ | .cAsrImm _ _ _ => .nzc
  | .cAddReg _ _ _ | .cSubReg _ _ _ | .cAddImm3 _ _ _ | .cSubImm3 _ _ _ => .nzcv
  | .cMovImm8 _ _ => .nz
  | .cCmpImm8 _ _ | .cAddImm8 _ _ | .cSubImm8 _ _ => .nzcv
  | .cAnd _ _ | .cEor _ _ => .nz
  | .cLsl _ _ | .cLsr _ _ | .cAsr _ _ => .nzc
  | .cAdc _ _ | .cSbc _ _ => .nzcv
  | .cRor _ _ => .nzc
  | .cTst _ _ => .nz
  | .cNeg _ _ | .cCmp _ _ | .cCmn _ _ => .nzcv
  | .cOrr _ _ | .cMul _ _ | .cBic _ _ | .cMvn _ _ => .nz
  | .cCmpHi _ _ => .nzcv
  | _ => .none

/-- The destination register of a wide instruction. -/
def wideDest : Instr → List Reg
  | .andImm _ _ _ rd _ _ | .andReg _ _ _ rd _ _ _ | .andRsr _ _ _ rd _ _ _ | .eorImm _ _ _ rd _ _
  | .eorReg _ _ _ rd _ _ _ | .eorRsr _ _ _ rd _ _ _ | .subImm _ _ _ rd _ _ | .subReg _ _ _ rd _ _ _
  | .subRsr _ _ _ rd _ _ _ | .rsbImm _ _ _ rd _ _ | .rsbReg _ _ _ rd _ _ _ | .rsbRsr _ _ _ rd _ _ _
  | .addImm _ _ _ rd _ _ | .addReg _ _ _ rd _ _ _ | .addRsr _ _ _ rd _ _ _ | .adcImm _ _ _ rd _ _
  | .adcReg _ _ _ rd _ _ _ | .adcRsr _ _ _ rd _ _ _ | .sbcImm _ _ _ rd _ _ | .sbcReg _ _ _ rd _ _ _
  | .sbcRsr _ _ _ rd _ _ _ | .rscImm _ _ _ rd _ _ | .rscReg _ _ _ rd _ _ _ | .rscRsr _ _ _ rd _ _ _
  | .orrImm _ _ _ rd _ _ | .orrReg _ _ _ rd _ _ _ | .orrRsr _ _ _ rd _ _ _ | .movImm _ _ _ rd _ _
  | .movReg _ _ _ rd _ _ _ | .movRsr _ _ _ rd _ _ _ | .bicImm _ _ _ rd _ _ | .bicReg _ _ _ rd _ _ _
  | .bicRsr _ _ _ rd _ _ _ | .mvnImm _ _ _ rd _ _ | .mvnReg _ _ _ rd _ _ _ | .mvnRsr _ _ _ rd _ _ _
  | .mrs _ _ rd | .clz _ rd _ | .mul _ _ rd _ _ | .ldrhImm _ _ _ _ _ rd _ _ | .ldrhReg _ _ _ _ _ rd _
  | .ldrsbImm _ _ _ _ _ rd _ _ | .ldrsbReg _ _ _ _ _ rd _ | .ldrshReg _ _ _ _ _ rd _ | .ldrImm _ _ _ _ _ rd _
  | .ldrReg _ _ _ _ _ rd _ _ _ | .ldrtImm _ _ _ rd _ | .ldrtReg _ _ _ rd _ _ _ | .ldrbImm _ _ _ _ _ rd _
  | .ldrbReg _ _ _ _ _ rd _ _ _ | .ldrbtImm _ _ _ rd _ | .ldrbtReg _ _ _ rd _ _ _ => [rd]
  | _ => []

/-- The destination registers of a compact instruction: Rd, or the loaded registers of a list. -/
def compactDest : Instr → List Reg
  | .cAddHi _ rd | .cMovHi _ rd => [rd]
  | .cLslImm _ _ rd | .cLsrImm _ _ rd | .cAsrImm _ _ rd | .cAddReg _ _ rd | .cSubReg _ _ rd | .cAddImm3 _ _ rd
  | .cSubImm3 _ _ rd | .cMovImm8 rd _ | .cAddImm8 rd _ | .cSubImm8 rd _ | .cAnd _ rd | .cEor _ rd | .cLsl _ rd
  | .cLsr _ rd | .cAsr _ rd | .cAdc _ rd | .cSbc _ rd | .cRor _ rd | .cNeg _ rd | .cOrr _ rd | .cMul _ rd
  | .cBic _ rd | .cMvn _ rd | .cLdrLit rd _ | .cLdrsbReg _ _ rd | .cLdrReg _ _ rd | .cLdrhReg _ _ rd
  | .cLdrbReg _ _ rd | .cLdrshReg _ _ rd | .cLdrImm _ _ rd | .cLdrbImm _ _ rd | .cLdrhImm _ _ rd | .cLdrSp rd _
  | .cAddPc rd _ | .cAddSp rd _ | .cSxth _ rd | .cSxtb _ rd | .cUxth _ rd | .cUxtb _ rd | .cRev _ rd | .cRev16 _ rd
  | .cRevsh _ rd => [lowReg rd]
  | .cPop _ list | .cLdmia _ list => listRegs list
  | _ => []

/-- The base register an addressing mode writes back (43_wide_load_store.md R235, 46_compact_load_store.md R365, R366,
R368, R369). -/
def baseRegs : Instr → List Reg
  | .strhImm _ p _ w rn _ _ _ | .strhReg _ p _ w rn _ _ | .ldrhImm _ p _ w rn _ _ _ | .ldrhReg _ p _ w rn _ _
  | .ldrsbImm _ p _ w rn _ _ _ | .ldrsbReg _ p _ w rn _ _ | .ldrshReg _ p _ w rn _ _ | .strImm _ p _ w rn _ _
  | .strReg _ p _ w rn _ _ _ _ | .ldrImm _ p _ w rn _ _ | .ldrReg _ p _ w rn _ _ _ _ | .strbImm _ p _ w rn _ _
  | .strbReg _ p _ w rn _ _ _ _ | .ldrbImm _ p _ w rn _ _ | .ldrbReg _ p _ w rn _ _ _ _ =>
    if !p || w then [rn] else []
  | .strtImm _ _ rn _ _ | .strtReg _ _ rn _ _ _ _ | .ldrtImm _ _ rn _ _ | .ldrtReg _ _ rn _ _ _ _
  | .strbtImm _ _ rn _ _ | .strbtReg _ _ rn _ _ _ _ | .ldrbtImm _ _ rn _ _ | .ldrbtReg _ _ rn _ _ _ _ => [rn]
  | .cStmia rn _ | .cLdmia rn _ => [lowReg rn]
  | .cPush _ _ | .cPop _ _ | .cAddSpImm _ | .cSubSpImm _ => [spReg]
  | _ => []

/-- The fixed registers an instruction writes: the link register, and `x[0]` of a trap (60_exceptions.md R450). -/
def fixedRegs : Instr → List Reg
  | .blxReg _ _ | .bl _ _ | .cBlxReg _ | .cBlPrefix _ | .cBlSuffix _ => [lrReg]
  | .swiTrap _ | .cSwiTrap => [0#4]
  | _ => []

/-- The registers other than the program counter that an instruction may write. -/
def writtenRegs (i : Instr) : List Reg := wideDest i ++ compactDest i ++ baseRegs i ++ fixedRegs i

/-- The instructions that may write the program counter (10_state.md R25). -/
def writesPc : Instr → Bool
  | .andImm _ _ _ rd _ _ | .andReg _ _ _ rd _ _ _ | .andRsr _ _ _ rd _ _ _ | .eorImm _ _ _ rd _ _
  | .eorReg _ _ _ rd _ _ _ | .eorRsr _ _ _ rd _ _ _ | .subImm _ _ _ rd _ _ | .subReg _ _ _ rd _ _ _
  | .subRsr _ _ _ rd _ _ _ | .rsbImm _ _ _ rd _ _ | .rsbReg _ _ _ rd _ _ _ | .rsbRsr _ _ _ rd _ _ _
  | .addImm _ _ _ rd _ _ | .addReg _ _ _ rd _ _ _ | .addRsr _ _ _ rd _ _ _ | .adcImm _ _ _ rd _ _
  | .adcReg _ _ _ rd _ _ _ | .adcRsr _ _ _ rd _ _ _ | .sbcImm _ _ _ rd _ _ | .sbcReg _ _ _ rd _ _ _
  | .sbcRsr _ _ _ rd _ _ _ | .rscImm _ _ _ rd _ _ | .rscReg _ _ _ rd _ _ _ | .rscRsr _ _ _ rd _ _ _
  | .orrImm _ _ _ rd _ _ | .orrReg _ _ _ rd _ _ _ | .orrRsr _ _ _ rd _ _ _ | .movImm _ _ _ rd _ _
  | .movReg _ _ _ rd _ _ _ | .movRsr _ _ _ rd _ _ _ | .bicImm _ _ _ rd _ _ | .bicReg _ _ _ rd _ _ _
  | .bicRsr _ _ _ rd _ _ _ | .mvnImm _ _ _ rd _ _ | .mvnReg _ _ _ rd _ _ _ | .mvnRsr _ _ _ rd _ _ _ => rd == pcReg
  | .bx _ _ | .blxReg _ _ => true
  | .ldrImm _ _ _ _ _ rd _ | .ldrReg _ _ _ _ _ rd _ _ _ => rd == pcReg
  | .b _ _ | .bl _ _ => true
  | .cAddHi _ rd | .cMovHi _ rd => rd == pcReg
  | .cBx _ | .cBlxReg _ => true
  | .cPop pc _ => pc
  | .cBcond _ _ | .cB _ | .cBlSuffix _ => true
  | _ => false

/-- `n` word accesses at ascending addresses, modulo 2^32 (20_memory.md R65). -/
def wordsFrom (a : Word) : Nat → List (Word × Width)
  | 0 => []
  | n + 1 => (a, .word) :: wordsFrom (a + 4#32) n

/-- The writes among the accesses of a shim reply (60_exceptions.md R451). -/
def shimWrites : List ShimAccess → List (Word × Width)
  | [] => []
  | .read _ _ :: rest => shimWrites rest
  | .write addr w _ :: rest => (addr, w) :: shimWrites rest

/-- The accesses by which an instruction may store: the address, as its meaning computes it, and the width. -/
def storesTo (i : Instr) (s : State) : List (Word × Width) :=
  match i with
  | .strhImm _ p u _ rn _ immH immL => [(lsAddr s p u rn (offsetSplit immH immL), .half)]
  | .strhReg _ p u _ rn _ rm => [(lsAddr s p u rn (offsetReg s rm), .half)]
  | .strImm _ p u _ rn _ imm12 => [(lsAddr s p u rn (offsetImm12 imm12), .word)]
  | .strReg _ p u _ rn _ amount sh rm => [(lsAddr s p u rn (offsetScaled s amount sh rm), .word)]
  | .strtImm _ u rn _ imm12 => [(lsAddr s false u rn (offsetImm12 imm12), .word)]
  | .strtReg _ u rn _ amount sh rm => [(lsAddr s false u rn (offsetScaled s amount sh rm), .word)]
  | .strbImm _ p u _ rn _ imm12 => [(lsAddr s p u rn (offsetImm12 imm12), .byte)]
  | .strbReg _ p u _ rn _ amount sh rm => [(lsAddr s p u rn (offsetScaled s amount sh rm), .byte)]
  | .strbtImm _ u rn _ imm12 => [(lsAddr s false u rn (offsetImm12 imm12), .byte)]
  | .strbtReg _ u rn _ amount sh rm => [(lsAddr s false u rn (offsetScaled s amount sh rm), .byte)]
  | .swiTrap _ => shimWrites (shimReply s).accesses
  | .cStrReg rm rn _ => [(regAddr s rn rm, .word)]
  | .cStrhReg rm rn _ => [(regAddr s rn rm, .half)]
  | .cStrbReg rm rn _ => [(regAddr s rn rm, .byte)]
  | .cStrImm imm5 rn _ => [(readLow s rn + scaled4 imm5, .word)]
  | .cStrbImm imm5 rn _ => [(readLow s rn + scaled1 imm5, .byte)]
  | .cStrhImm imm5 rn _ => [(readLow s rn + scaled2 imm5, .half)]
  | .cStrSp _ imm8 => [(spAddr s imm8, .word)]
  | .cPush lr list => wordsFrom (pushStart s lr list) (pushRegs lr list).length
  | .cStmia rn list => wordsFrom (readLow s rn) (listRegs list).length
  | .cSwiTrap => shimWrites (shimReply s).accesses
  | _ => []

/-- The byte at an address lies in none of some accesses. -/
def outside (accesses : List (Word × Width)) (a : Nat) : Prop :=
  ∀ x ∈ accesses, a < x.1.toNat ∨ x.1.toNat + x.2.bytes ≤ a

/-- The instructions that may ask for the other engine (48_mode_switch.md R422), with the mode they ask for. -/
def switchTarget : Instr → Option Mode
  | .bx _ _ | .blxReg _ _ => some .compact
  | .cBx _ | .cBlxReg _ => some .wide
  | .cPop pc _ => if pc then some .wide else none
  | _ => none

/-- The two instructions that call the Syscall Shim (60_exceptions.md R450). -/
def isTrap : Instr → Bool
  | .swiTrap _ | .cSwiTrap => true
  | _ => false

/-! ## Results in unbounded arithmetic -/

/-- A flag-setting form writes the four flags, any other form none. -/
def flagged (sf n z c v : Bool) (s : State) : State :=
  if sf then s.setStatus (statusWith s.status n z c v) else s

/-- A value outside the signed 32-bit range (40_cond_shifter_alu.md R152). -/
def outOfRange (x : Int) : Bool := decide (x < -(2 ^ 31)) || decide (2 ^ 31 ≤ x)

/-- The sum of two words and a carry, modulo 2^32. -/
def sumOf (a b : Word) (cin : Bool) : Word := a + b + (if cin then 1#32 else 0#32)

/-- The flags of a sum (40_cond_shifter_alu.md R150, R151): carry and overflow by unbounded sums. -/
def sumFlagged (sf : Bool) (a b : Word) (cin : Bool) (s : State) : State :=
  flagged sf (sumOf a b cin).msb (sumOf a b cin == 0#32) (decide (2 ^ 32 ≤ a.toNat + b.toNat + cin.toNat))
    (outOfRange (a.toInt + b.toInt + cin.toNat)) s

/-- The difference of two words and a borrow, modulo 2^32: `cin` clear is a borrow. -/
def differenceOf (m d : Word) (cin : Bool) : Word := m - d - (if cin then 0#32 else 1#32)

/-- The flags of a difference (40_cond_shifter_alu.md R152): carry means no borrow, overflow by unbounded
differences. -/
def differenceFlagged (sf : Bool) (m d : Word) (cin : Bool) (s : State) : State :=
  flagged sf (differenceOf m d cin).msb (differenceOf m d cin == 0#32) (decide (d.toNat + (!cin).toNat ≤ m.toNat))
    (outOfRange (m.toInt - d.toInt - (!cin).toNat)) s

/-- The flags of a logical result with a shifter carry (40_cond_shifter_alu.md R154); V stays. -/
def logicFlagged (sf : Bool) (r : Word) (carry : Bool) (s : State) : State :=
  flagged sf r.msb (r == 0#32) carry (flagV s) s

/-- The conditions read, after a compare of `a` with `b`, as comparisons of the two words: the names in the table of
40_cond_shifter_alu.md R130, unsigned for CS, CC, HI, LS and signed for GE, LT, GT, LE. -/
def answersCompare (a b : Word) (s : State) : Prop :=
  condPassed .eq s = decide (a = b) ∧ condPassed .ne s = decide (a ≠ b) ∧
  condPassed .cs s = decide (b.toNat ≤ a.toNat) ∧ condPassed .cc s = decide (a.toNat < b.toNat) ∧
  condPassed .hi s = decide (b.toNat < a.toNat) ∧ condPassed .ls s = decide (a.toNat ≤ b.toNat) ∧
  condPassed .ge s = decide (b.toInt ≤ a.toInt) ∧ condPassed .lt s = decide (a.toInt < b.toInt) ∧
  condPassed .gt s = decide (b.toInt < a.toInt) ∧ condPassed .le s = decide (a.toInt ≤ b.toInt)

/-! ## What a stop records, and what a trap does -/

/-- The kind of a fault of the block; a step of a stopped machine is none. -/
def faultKind : Fault → Option FaultKind
  | .unimplementedInstruction iaddr instr _ => some (.unimplementedInstruction iaddr instr)
  | .undefinedInstruction iaddr instr _ => some (.undefinedInstruction iaddr instr)
  | .segmentFault addr _ => some (.segmentFault addr)
  | .alignmentFault addr _ => some (.alignmentFault addr)
  | .modeSwitchUnsupported iaddr instr target _ => some (.modeSwitchUnsupported iaddr instr target)
  | .notRunning _ => none

/-- The state a run stops in. -/
def faultFinal : Fault → State
  | .unimplementedInstruction _ _ s | .undefinedInstruction _ _ s | .segmentFault _ s | .alignmentFault _ s => s
  | .modeSwitchUnsupported _ _ _ s | .notRunning s => s

/-- The outcome of an instruction that faults with nothing written but the run state (60_exceptions.md R441, R444). -/
def faultsWith (k : FaultKind) (s : State) (o : Out) : Prop :=
  ∃ f, o = .fault f ∧ faultKind f = some k ∧ faultFinal f = s.setRun (.faulted k)

/-- The address and the width of an access of the shim. -/
def shimTarget : ShimAccess → Word × Width
  | .read addr w => (addr, w)
  | .write addr w _ => (addr, w)

/-- Every access of a list of accesses of the shim passes its checks (60_exceptions.md R451). -/
def shimAllowed (s : State) : List ShimAccess → Bool
  | [] => true
  | .read addr w :: rest => (accessFault s addr w == none) && shimAllowed s rest
  | .write addr w _ :: rest => (accessFault s addr w == none) && shimAllowed s rest

/-- Memory after the writes of a list of accesses of the shim. -/
def shimMemory : List ShimAccess → Memory → Memory
  | [], m => m
  | .read _ _ :: rest, m => shimMemory rest m
  | .write addr w v :: rest, m => shimMemory rest (memStore m addr.toNat v w)

/-- The instructions of several words (60_exceptions.md R445), and the traps, whose shim may write before it faults
(R451): the only ones that can leave a partial effect at a fault. -/
def mayStopPartway : Instr → Bool
  | .cPush _ _ | .cPop _ _ | .cStmia _ _ | .cLdmia _ _ => true
  | i => isTrap i

/-! ## Encoded instructions as fetched -/

/-- The mode of an encoded instruction (30_encoding.md R91). -/
def modeOfCode : Code → Mode
  | .wide _ => .wide
  | .compact _ => .compact

/-- The bits of an encoded instruction as the current-instruction register holds them. -/
def wordOfCode : Code → Word
  | .wide w => w
  | .compact h => h.setWidth 32

/-- What every run keeps: memory in its canonical form and a well-formed segment table (20_memory.md R52). The stack
constants stand in it too. -/
def Inv (s : State) : Prop := memWf s.mem = true ∧ tableWf s.segs s.params = true

end Sys2Proof.Machine
end

