-- ==== Sys2Proof/Safety.lean ====
section
/-! DEFINITION. What counts as a safe run (60_exceptions.md R441, R448, R463, 70_reset_and_hazards.md R492). -/

namespace Sys2Proof.Machine

/-- The machine takes a step to a next state. -/
def StepsTo (s t : State) : Prop := step s = .next t

/-- The states a run from `s` passes through. -/
inductive Reaches (s : State) : State → Prop where
  | start : Reaches s s
  | more {t u : State} : Reaches s t → StepsTo t u → Reaches s u

/-- The run has ended by `ProgramEnd`, the only successful end (60_exceptions.md R448). -/
def Succeeded (s : State) : Prop := s.run = .terminated

/-- No step of the run is refused (60_exceptions.md R463): the premise under which a run's values may be used. -/
def NeverRefused (s : State) : Prop := ∀ t r, Reaches s t → step t ≠ .refused r

/-- A run is safe when each of its steps leads to a next state until it has succeeded: no fault and no refusal. -/
def SafeRun (s : State) : Prop := ∀ t, Reaches s t → Succeeded t ∨ ∃ u, StepsTo t u

end Sys2Proof.Machine
end

