-- ==== Sys2Proof/Certificates/Slice0/Obligations.lean ====
section
/-! DEFINITION. The statements for the provers. OBLIGATIONS.json says of each what it states and which rules of the
spec it rests on; the terms they use stand in Machine/Claims and Safety. -/

open Sys2Proof Sys2Proof.Machine

/-- Decoding the encoding of every well-formed instruction gives the instruction back (30_encoding.md R92,
30_encoding.md R94, 30_encoding.md R101, 30_encoding.md R108). -/
def Obligations.DecodeEncode : Prop :=
  ∀ i : Instr, i.wellFormed = true → decode (encode i) = .ok i

/-- A word that decodes is the encoding of the well-formed instruction it decodes to (30_encoding.md R97,
30_encoding.md R98, 30_encoding.md R104, 30_encoding.md R108). -/
def Obligations.DecodedIsEncoded : Prop :=
  ∀ (x : Code) (i : Instr), decode x = .ok i → i.wellFormed = true ∧ encode i = x

/-- Words written out from the encoding tables decode to their instructions (30_encoding.md R94, 30_encoding.md
R101). -/
def Obligations.DecodeWords : Prop :=
  decode (.wide 0xE3A00005#32) = .ok (.movImm .al false 0#4 0#4 0#4 5#8) ∧
  decode (.wide 0xE0233104#32) = .ok (.eorReg .al false 3#4 3#4 2#5 .lsl 4#4) ∧
  decode (.wide 0xE1B00271#32) = .ok (.movRsr .al true 0#4 0#4 2#4 .ror 1#4) ∧
  decode (.wide 0xE16F0F11#32) = .ok (.clz .al 0#4 1#4) ∧
  decode (.wide 0xE0120493#32) = .ok (.mul .al true 2#4 4#4 3#4) ∧
  decode (.wide 0xE5210004#32) = .ok (.strImm .al true false true 1#4 0#4 4#12) ∧
  decode (.wide 0xE7910102#32) = .ok (.ldrReg .al true true false 1#4 0#4 2#5 .lsl 2#4) ∧
  decode (.wide 0xE1C101B2#32) = .ok (.strhImm .al true true false 1#4 0#4 1#4 2#4) ∧
  decode (.wide 0x1AFFFFFC#32) = .ok (.b .ne 0xFFFFFC#24) ∧
  decode (.wide 0xEF123456#32) = .ok (.swiTrap .al) ∧
  decode (.compact 0x081A#16) = .ok (.cLsrImm 0#5 3#3 2#3) ∧
  decode (.compact 0x4440#16) = .ok (.cAddHi 8#4 0#4) ∧
  decode (.compact 0xB510#16) = .ok (.cPush true 0x10#8) ∧
  decode (.compact 0xD1FE#16) = .ok (.cBcond .ne 0xFE#8) ∧
  decode (.compact 0xDFAB#16) = .ok .cSwiTrap

/-- A step runs the decoded instruction on the state with the word latched and the program counter advanced
(10_state.md R24, 10_state.md R31, 00_scope.md R9, 30_encoding.md R91). -/
def Obligations.StepRunsDecoded : Prop :=
  ∀ (s : State) (w : Word) (i : Instr), s.run = .running → fetch s = .ok w →
    decode (codeOfFetched s.mode w) = .ok i → i.wellFormed = true →
    step s = exec i (advance s w) ∧
    (advance s w).iaddr = s.pc ∧ (advance s w).instr = w ∧
    (advance s w).pc = s.pc + (match s.mode with | .wide => 4#32 | .compact => 2#32) ∧
    (∀ r : Reg, r ≠ pcReg → (advance s w).reg r = s.reg r) ∧
    (advance s w).status = s.status ∧ (advance s w).mode = s.mode ∧ (advance s w).run = s.run ∧
    (advance s w).segs = s.segs ∧ (advance s w).params = s.params ∧ (advance s w).mem = s.mem ∧
    (advance s w).shim = s.shim ∧ (advance s w).shimCalls = s.shimCalls

/-- Fetch checks alignment, then the code segment and its end, and a fetch fault leaves the program counter
(20_memory.md R64). -/
def Obligations.FetchChecks : Prop :=
  ∀ s : State, s.run = .running →
    (s.pc.toNat % s.mode.instrWidth.bytes ≠ 0 → faultsWith (.alignmentFault s.pc) s (step s)) ∧
    (s.pc.toNat % s.mode.instrWidth.bytes = 0 →
      ¬ (s.segs.code.base ≤ s.pc.toNat ∧
        s.pc.toNat + s.mode.instrWidth.bytes ≤ s.segs.code.base + s.segs.code.size) →
      faultsWith (.segmentFault s.pc) s (step s)) ∧
    (s.pc.toNat % s.mode.instrWidth.bytes = 0 → s.segs.code.base ≤ s.pc.toNat →
      s.pc.toNat + s.mode.instrWidth.bytes ≤ s.segs.code.base + s.segs.code.size →
      fetch s = .ok (match s.mode with
        | .wide => memGet s.mem (s.pc.toNat + 3) ++ memGet s.mem (s.pc.toNat + 2) ++ memGet s.mem (s.pc.toNat + 1) ++
            memGet s.mem s.pc.toNat
        | .compact => (memGet s.mem (s.pc.toNat + 1) ++ memGet s.mem s.pc.toNat).setWidth 32))

/-- A word that selects no row raises UndefinedInstruction, a wide one only if its condition passes or is 1111
(30_encoding.md R98, 30_encoding.md R99, 30_encoding.md R104, 40_cond_shifter_alu.md R132, 60_exceptions.md R446). -/
def Obligations.UndecodedWord : Prop :=
  ∀ (s : State) (w : Word) (e : DecodeError), s.run = .running → fetch s = .ok w →
    decode (codeOfFetched s.mode w) = .error e →
    (s.mode = .compact → faultsWith (.undefinedInstruction s.pc w) (advance s w) (step s)) ∧
    (s.mode = .wide → field w 28 4 = 0xF#4 → faultsWith (.undefinedInstruction s.pc w) (advance s w) (step s)) ∧
    (∀ c, s.mode = .wide → field w 28 4 = Cond.toBits c → condPassed c s = true →
      faultsWith (.undefinedInstruction s.pc w) (advance s w) (step s)) ∧
    (∀ c, s.mode = .wide → field w 28 4 = Cond.toBits c → condPassed c s = false →
      step s = .next (advance s w))

/-- A machine that no longer runs takes no step (10_state.md R32, 93_implementation_defined.md S1). The spec says
only that no move exists; that step answers the fault notRunning and leaves the state as it is, is the model's
choice (DESIGN CHOICE, log entry 13). -/
def Obligations.StoppedHasNoMove : Prop :=
  ∀ s : State, s.run ≠ .running → step s = .fault (.notRunning s)

/-- A data access checks alignment, then the owning segment, then that it ends in it (20_memory.md R60). -/
def Obligations.AccessChecks : Prop :=
  ∀ (s : State) (a v : Word) (w : Width),
    (a.toNat % w.bytes ≠ 0 →
      memRead s a w = .error (.alignmentFault a) ∧ memWrite s a v w = .error (.alignmentFault a)) ∧
    (a.toNat % w.bytes = 0 → resolve s a.toNat = none →
      memRead s a w = .error (.segmentFault a) ∧ memWrite s a v w = .error (.segmentFault a)) ∧
    (∀ k, a.toNat % w.bytes = 0 → resolve s a.toNat = some k →
      (segmentOf s.segs s.params k).base + (segmentOf s.segs s.params k).size < a.toNat + w.bytes →
      memRead s a w = .error (.segmentFault a) ∧ memWrite s a v w = .error (.segmentFault a)) ∧
    (∀ k, a.toNat % w.bytes = 0 → resolve s a.toNat = some k →
      a.toNat + w.bytes ≤ (segmentOf s.segs s.params k).base + (segmentOf s.segs s.params k).size →
      memRead s a w = .ok (memValue s.mem a.toNat w) ∧
      memWrite s a v w = .ok (s.setMem (memStore s.mem a.toNat v w)))

/-- With a well-formed table every address is in at most one segment, and resolve finds that one (20_memory.md R51,
20_memory.md R52, 20_memory.md R53, 20_memory.md R54, 20_memory.md R57). -/
def Obligations.ResolveExclusive : Prop :=
  ∀ (s : State) (a : Nat), tableWf s.segs s.params = true →
    (∀ k, resolve s a = some k ↔
      (segmentOf s.segs s.params k).base ≤ a ∧
      a < (segmentOf s.segs s.params k).base + (segmentOf s.segs s.params k).size) ∧
    (resolve s a = none ↔
      ∀ k, ¬ ((segmentOf s.segs s.params k).base ≤ a ∧
        a < (segmentOf s.segs s.params k).base + (segmentOf s.segs s.params k).size)) ∧
    (resolve s a = some .stack ↔ s.params.stackTop.toNat - s.params.stackSize ≤ a ∧ a < s.params.stackTop.toNat) ∧
    (resolve s a = some .heap ↔
      s.segs.bss.base + s.segs.bss.size ≤ a ∧ a < s.params.stackTop.toNat - s.params.stackSize)

/-- A written value is read back to its width, little-endian, and no other byte changes (20_memory.md R58,
20_memory.md R63, 20_memory.md R69). -/
def Obligations.WriteThenRead : Prop :=
  ∀ (s t : State) (a v : Word) (w : Width), memWrite s a v w = .ok t →
    (∃ r, memRead t a w = .ok r ∧ r.toNat = v.toNat % 2 ^ (8 * w.bytes)) ∧
    (∀ j, j < w.bytes → (memGet t.mem (a.toNat + j)).toNat = v.toNat / 2 ^ (8 * j) % 256) ∧
    (∀ b, b < a.toNat ∨ a.toNat + w.bytes ≤ b → memGet t.mem b = memGet s.mem b) ∧
    t = s.setMem t.mem

/-- A store to the code segment is seen by the next fetch of that address (20_memory.md R62, 20_memory.md R72). -/
def Obligations.StoreReachesFetch : Prop :=
  ∀ (s t : State) (v : Word),
    (s.mode = .wide → memWrite s s.pc v .word = .ok t → resolve s s.pc.toNat = some .code → fetch t = .ok v) ∧
    (s.mode = .compact → memWrite s s.pc v .half = .ok t → resolve s s.pc.toNat = some .code →
      fetch t = .ok (v &&& 0xFFFF#32))

/-- The condition evaluator agrees with the printed truth table of 15 codes by 16 flag combinations, and reads the
four flags at their places in the status word (10_state.md R27, 40_cond_shifter_alu.md R130,
40_cond_shifter_alu.md R131). -/
def Obligations.ConditionTable : Prop :=
  (∀ c : Cond, condHolds c false false false false = bit 0b101011010101010#15 c.toBits.toNat) ∧
  (∀ c : Cond, condHolds c false false false true = bit 0b110101001101010#15 c.toBits.toNat) ∧
  (∀ c : Cond, condHolds c false false true false = bit 0b101010110100110#15 c.toBits.toNat) ∧
  (∀ c : Cond, condHolds c false false true true = bit 0b110100101100110#15 c.toBits.toNat) ∧
  (∀ c : Cond, condHolds c false true false false = bit 0b110011010101001#15 c.toBits.toNat) ∧
  (∀ c : Cond, condHolds c false true false true = bit 0b110101001101001#15 c.toBits.toNat) ∧
  (∀ c : Cond, condHolds c false true true false = bit 0b110011010100101#15 c.toBits.toNat) ∧
  (∀ c : Cond, condHolds c false true true true = bit 0b110101001100101#15 c.toBits.toNat) ∧
  (∀ c : Cond, condHolds c true false false false = bit 0b110101010011010#15 c.toBits.toNat) ∧
  (∀ c : Cond, condHolds c true false false true = bit 0b101011001011010#15 c.toBits.toNat) ∧
  (∀ c : Cond, condHolds c true false true false = bit 0b110100110010110#15 c.toBits.toNat) ∧
  (∀ c : Cond, condHolds c true false true true = bit 0b101010101010110#15 c.toBits.toNat) ∧
  (∀ c : Cond, condHolds c true true false false = bit 0b110101010011001#15 c.toBits.toNat) ∧
  (∀ c : Cond, condHolds c true true false true = bit 0b110011001011001#15 c.toBits.toNat) ∧
  (∀ c : Cond, condHolds c true true true false = bit 0b110101010010101#15 c.toBits.toNat) ∧
  (∀ c : Cond, condHolds c true true true true = bit 0b110011001010101#15 c.toBits.toNat) ∧
  (∀ (c : Cond) (s : State), condPassed c s =
    condHolds c (s.status.getLsbD 31) (s.status.getLsbD 30) (s.status.getLsbD 29) (s.status.getLsbD 28)) ∧
  (∀ s : State, flagN s = s.status.getLsbD 31 ∧ flagZ s = s.status.getLsbD 30 ∧ flagC s = s.status.getLsbD 29 ∧
    flagV s = s.status.getLsbD 28) ∧
  (∀ (st : Word) (n z c v : Bool),
    (statusWith st n z c v).getLsbD 31 = n ∧ (statusWith st n z c v).getLsbD 30 = z ∧
    (statusWith st n z c v).getLsbD 29 = c ∧ (statusWith st n z c v).getLsbD 28 = v ∧
    ∀ i, i < 28 → (statusWith st n z c v).getLsbD i = st.getLsbD i)

/-- After a compare the conditions are the unsigned and signed comparisons of the two operands
(40_cond_shifter_alu.md R130, 40_cond_shifter_alu.md R152, 41_wide_data_processing.md R185, 45_compact_alu.md R289,
45_compact_alu.md R311, 45_compact_alu.md R322). -/
def Obligations.CompareAnswersConditions : Prop :=
  (∀ (c : Cond) (rn rd : Reg) (rot : BitVec 4) (imm : BitVec 8) (s : State), condPassed c s = true → rd ≠ pcReg →
    ∃ t, exec (.cmpImm c rn rd rot imm) s = .next t ∧ answersCompare (readWide s rn) (operandImm s rot imm).value t) ∧
  (∀ (c : Cond) (rn rd : Reg) (amount : BitVec 5) (sh : ShiftType) (rm : Reg) (s : State), condPassed c s = true →
    rd ≠ pcReg → ∃ t, exec (.cmpReg c rn rd amount sh rm) s = .next t ∧
      answersCompare (readWide s rn) (operandReg s amount sh rm).value t) ∧
  (∀ (c : Cond) (rn rd rs : Reg) (sh : ShiftType) (rm : Reg) (s : State), condPassed c s = true → rd ≠ pcReg →
    rn ≠ pcReg → rs ≠ pcReg → rm ≠ pcReg → ∃ t, exec (.cmpRsr c rn rd rs sh rm) s = .next t ∧
      answersCompare (s.reg rn) (operandRsr s rs sh rm).value t) ∧
  (∀ (rd : LowReg) (imm8 : BitVec 8) (s : State), ∃ t, exec (.cCmpImm8 rd imm8) s = .next t ∧
    answersCompare (s.reg (lowReg rd)) (imm8.setWidth 32) t) ∧
  (∀ (rm rd : LowReg) (s : State), ∃ t, exec (.cCmp rm rd) s = .next t ∧
    answersCompare (s.reg (lowReg rd)) (s.reg (lowReg rm)) t) ∧
  (∀ (rm rd : Reg) (s : State), ∃ t, exec (.cCmpHi rm rd) s = .next t ∧
    answersCompare (readCompact s rd) (readCompact s rm) t)

/-- The shifter in arithmetic: LSL multiplies, LSR divides, ASR divides rounding down, ROR permutes, with the carry
of each (40_cond_shifter_alu.md R135, 40_cond_shifter_alu.md R137, 40_cond_shifter_alu.md R138). -/
def Obligations.ShiftTable : Prop :=
  ∀ (v : Word) (n : Nat) (cin : Bool),
    ((shiftC .lsl v n cin).value.toNat = v.toNat * 2 ^ n % 2 ^ 32 ∧
      (shiftC .lsl v n cin).carry = if n = 0 then cin else (v.toNat * 2 ^ n).testBit 32) ∧
    ((shiftC .lsr v n cin).value.toNat = v.toNat / 2 ^ n ∧
      (shiftC .lsr v n cin).carry = if n = 0 then cin else v.toNat.testBit (n - 1)) ∧
    ((shiftC .asr v n cin).value.toInt = v.toInt / 2 ^ n ∧
      (shiftC .asr v n cin).carry = if n = 0 then cin else decide (v.toInt / 2 ^ (n - 1) % 2 = 1)) ∧
    ((∀ i, i < 32 → (shiftC .ror v n cin).value.getLsbD i = v.getLsbD ((i + n) % 32)) ∧
      (shiftC .ror v n cin).carry = if n = 0 then cin else v.getLsbD ((n + 31) % 32)) ∧
    (∀ (t : ShiftType) (a : BitVec 5), a ≠ 0#5 → shiftByImm t v a cin = shiftC t v a.toNat cin) ∧
    shiftByImm .lsl v 0#5 cin = ⟨v, cin⟩ ∧
    shiftByImm .lsr v 0#5 cin = shiftC .lsr v 32 cin ∧
    shiftByImm .asr v 0#5 cin = shiftC .asr v 32 cin ∧
    ((shiftByImm .ror v 0#5 cin).value.toNat = cin.toNat * 2 ^ 31 + v.toNat / 2 ∧
      (shiftByImm .ror v 0#5 cin).carry = v.toNat.testBit 0) ∧
    (∀ (t : ShiftType) (amount : Word), shiftByReg t v amount cin = shiftC t v (amount.toNat % 256) cin)

/-- The operands of the three data-processing formats, the reads of register 15, and the offsets, addresses and
write-back of the memory forms (10_state.md R24, 40_cond_shifter_alu.md R136, 40_cond_shifter_alu.md R137,
40_cond_shifter_alu.md R138, 43_wide_load_store.md R230, 43_wide_load_store.md R231, 43_wide_load_store.md R232,
43_wide_load_store.md R233, 43_wide_load_store.md R234, 43_wide_load_store.md R235). -/
def Obligations.OperandsAndOffsets : Prop :=
  ∀ (s : State),
    (∀ (rot : BitVec 4) (imm : BitVec 8),
      (∀ i, i < 32 → (operandImm s rot imm).value.getLsbD i = imm.getLsbD ((i + 2 * rot.toNat) % 32)) ∧
      (operandImm s rot imm).carry = if rot = 0#4 then flagC s else (operandImm s rot imm).value.msb) ∧
    (∀ (amount : BitVec 5) (sh : ShiftType) (rm : Reg),
      operandReg s amount sh rm = shiftByImm sh (readWide s rm) amount (flagC s)) ∧
    (∀ (rs : Reg) (sh : ShiftType) (rm : Reg), rs ≠ pcReg → rm ≠ pcReg →
      operandRsr s rs sh rm = shiftByReg sh (s.reg rm) (s.reg rs) (flagC s)) ∧
    (∀ r : Reg, readWide s r = if r = pcReg then s.iaddr + 8#32 else s.reg r) ∧
    (∀ r : Reg, readCompact s r = if r = pcReg then s.iaddr + 4#32 else s.reg r) ∧
    (∀ imm12 : BitVec 12, (offsetImm12 imm12).toNat = imm12.toNat) ∧
    (∀ (amount : BitVec 5) (sh : ShiftType) (rm : Reg), offsetScaled s amount sh rm = (operandReg s amount sh rm).value) ∧
    (∀ rm : Reg, offsetScaled s 0#5 .lsl rm = readWide s rm) ∧
    (∀ immH immL : BitVec 4, (offsetSplit immH immL).toNat = 16 * immH.toNat + immL.toNat) ∧
    (∀ rm : Reg, offsetReg s rm = readWide s rm) ∧
    (∀ (rn : Reg) (offset : Word),
      (offAddr s true rn offset).toNat = ((readWide s rn).toNat + offset.toNat) % 2 ^ 32 ∧
      (offAddr s false rn offset).toNat = ((readWide s rn).toNat + 2 ^ 32 - offset.toNat) % 2 ^ 32) ∧
    (∀ (u w : Bool) (rn : Reg) (offset : Word),
      lsAddr s true u rn offset = offAddr s u rn offset ∧ lsAddr s false u rn offset = readWide s rn ∧
      lsWritesBack false w = true ∧ lsWritesBack true w = w) ∧
    (∀ (p u w : Bool) (rn : Reg) (offset : Word) (t : State),
      (p = false ∨ w = true → lsBase s p u w rn offset t = t.setReg rn (offAddr s u rn offset)) ∧
      (p = true ∧ w = false → lsBase s p u w rn offset t = t))

/-- Wide AND, EOR, ORR, BIC: result, flags, and that they complete in all three operand formats
(41_wide_data_processing.md R175, 41_wide_data_processing.md R176, 41_wide_data_processing.md R187,
41_wide_data_processing.md R189). -/
def Obligations.WideLogical : Prop :=
  ∀ (c : Cond) (sf : Bool) (rn rd : Reg) (s : State), condPassed c s = true → rd ≠ pcReg →
  (∀ (rot : BitVec 4) (imm : BitVec 8), exec (.andImm c sf rn rd rot imm) s =
      .next (logicFlagged sf (readWide s rn &&& (operandImm s rot imm).value) (operandImm s rot imm).carry (s.setReg rd (readWide s rn &&& (operandImm s rot imm).value)))) ∧
  (∀ (amount : BitVec 5) (sh : ShiftType) (rm : Reg), exec (.andReg c sf rn rd amount sh rm) s =
      .next (logicFlagged sf (readWide s rn &&& (operandReg s amount sh rm).value) (operandReg s amount sh rm).carry (s.setReg rd (readWide s rn &&& (operandReg s amount sh rm).value)))) ∧
  (∀ (rs : Reg) (sh : ShiftType) (rm : Reg), rn ≠ pcReg → rs ≠ pcReg → rm ≠ pcReg → exec (.andRsr c sf rn rd rs sh rm) s =
      .next (logicFlagged sf (readWide s rn &&& (operandRsr s rs sh rm).value) (operandRsr s rs sh rm).carry (s.setReg rd (readWide s rn &&& (operandRsr s rs sh rm).value)))) ∧
  (∀ (rot : BitVec 4) (imm : BitVec 8), exec (.eorImm c sf rn rd rot imm) s =
      .next (logicFlagged sf (readWide s rn ^^^ (operandImm s rot imm).value) (operandImm s rot imm).carry (s.setReg rd (readWide s rn ^^^ (operandImm s rot imm).value)))) ∧
  (∀ (amount : BitVec 5) (sh : ShiftType) (rm : Reg), exec (.eorReg c sf rn rd amount sh rm) s =
      .next (logicFlagged sf (readWide s rn ^^^ (operandReg s amount sh rm).value) (operandReg s amount sh rm).carry (s.setReg rd (readWide s rn ^^^ (operandReg s amount sh rm).value)))) ∧
  (∀ (rs : Reg) (sh : ShiftType) (rm : Reg), rn ≠ pcReg → rs ≠ pcReg → rm ≠ pcReg → exec (.eorRsr c sf rn rd rs sh rm) s =
      .next (logicFlagged sf (readWide s rn ^^^ (operandRsr s rs sh rm).value) (operandRsr s rs sh rm).carry (s.setReg rd (readWide s rn ^^^ (operandRsr s rs sh rm).value)))) ∧
  (∀ (rot : BitVec 4) (imm : BitVec 8), exec (.orrImm c sf rn rd rot imm) s =
      .next (logicFlagged sf (readWide s rn ||| (operandImm s rot imm).value) (operandImm s rot imm).carry (s.setReg rd (readWide s rn ||| (operandImm s rot imm).value)))) ∧
  (∀ (amount : BitVec 5) (sh : ShiftType) (rm : Reg), exec (.orrReg c sf rn rd amount sh rm) s =
      .next (logicFlagged sf (readWide s rn ||| (operandReg s amount sh rm).value) (operandReg s amount sh rm).carry (s.setReg rd (readWide s rn ||| (operandReg s amount sh rm).value)))) ∧
  (∀ (rs : Reg) (sh : ShiftType) (rm : Reg), rn ≠ pcReg → rs ≠ pcReg → rm ≠ pcReg → exec (.orrRsr c sf rn rd rs sh rm) s =
      .next (logicFlagged sf (readWide s rn ||| (operandRsr s rs sh rm).value) (operandRsr s rs sh rm).carry (s.setReg rd (readWide s rn ||| (operandRsr s rs sh rm).value)))) ∧
  (∀ (rot : BitVec 4) (imm : BitVec 8), exec (.bicImm c sf rn rd rot imm) s =
      .next (logicFlagged sf (readWide s rn &&& ~~~(operandImm s rot imm).value) (operandImm s rot imm).carry (s.setReg rd (readWide s rn &&& ~~~(operandImm s rot imm).value)))) ∧
  (∀ (amount : BitVec 5) (sh : ShiftType) (rm : Reg), exec (.bicReg c sf rn rd amount sh rm) s =
      .next (logicFlagged sf (readWide s rn &&& ~~~(operandReg s amount sh rm).value) (operandReg s amount sh rm).carry (s.setReg rd (readWide s rn &&& ~~~(operandReg s amount sh rm).value)))) ∧
  (∀ (rs : Reg) (sh : ShiftType) (rm : Reg), rn ≠ pcReg → rs ≠ pcReg → rm ≠ pcReg → exec (.bicRsr c sf rn rd rs sh rm) s =
      .next (logicFlagged sf (readWide s rn &&& ~~~(operandRsr s rs sh rm).value) (operandRsr s rs sh rm).carry (s.setReg rd (readWide s rn &&& ~~~(operandRsr s rs sh rm).value))))

/-- Wide MOV and MVN: the operand or its complement, whatever the Rn field, in all three operand formats
(41_wide_data_processing.md R188, 41_wide_data_processing.md R190). -/
def Obligations.WideMoves : Prop :=
  ∀ (c : Cond) (sf : Bool) (rn rd : Reg) (s : State), condPassed c s = true → rd ≠ pcReg →
  (∀ (rot : BitVec 4) (imm : BitVec 8), exec (.movImm c sf rn rd rot imm) s =
      .next (logicFlagged sf (operandImm s rot imm).value (operandImm s rot imm).carry (s.setReg rd (operandImm s rot imm).value))) ∧
  (∀ (amount : BitVec 5) (sh : ShiftType) (rm : Reg), exec (.movReg c sf rn rd amount sh rm) s =
      .next (logicFlagged sf (operandReg s amount sh rm).value (operandReg s amount sh rm).carry (s.setReg rd (operandReg s amount sh rm).value))) ∧
  (∀ (rs : Reg) (sh : ShiftType) (rm : Reg), rs ≠ pcReg → rm ≠ pcReg → exec (.movRsr c sf rn rd rs sh rm) s =
      .next (logicFlagged sf (operandRsr s rs sh rm).value (operandRsr s rs sh rm).carry (s.setReg rd (operandRsr s rs sh rm).value))) ∧
  (∀ (rot : BitVec 4) (imm : BitVec 8), exec (.mvnImm c sf rn rd rot imm) s =
      .next (logicFlagged sf (~~~(operandImm s rot imm).value) (operandImm s rot imm).carry (s.setReg rd (~~~(operandImm s rot imm).value)))) ∧
  (∀ (amount : BitVec 5) (sh : ShiftType) (rm : Reg), exec (.mvnReg c sf rn rd amount sh rm) s =
      .next (logicFlagged sf (~~~(operandReg s amount sh rm).value) (operandReg s amount sh rm).carry (s.setReg rd (~~~(operandReg s amount sh rm).value)))) ∧
  (∀ (rs : Reg) (sh : ShiftType) (rm : Reg), rs ≠ pcReg → rm ≠ pcReg → exec (.mvnRsr c sf rn rd rs sh rm) s =
      .next (logicFlagged sf (~~~(operandRsr s rs sh rm).value) (operandRsr s rs sh rm).carry (s.setReg rd (~~~(operandRsr s rs sh rm).value))))

/-- Wide ADD, ADC, SUB, SBC, RSB, RSC: sums and differences with carry and overflow by unbounded arithmetic
(40_cond_shifter_alu.md R150, 40_cond_shifter_alu.md R151, 40_cond_shifter_alu.md R152, 41_wide_data_processing.md
R177, 41_wide_data_processing.md R178, 41_wide_data_processing.md R179, 41_wide_data_processing.md R180,
41_wide_data_processing.md R181, 41_wide_data_processing.md R182). -/
def Obligations.WideAddSubtract : Prop :=
  ∀ (c : Cond) (sf : Bool) (rn rd : Reg) (s : State), condPassed c s = true → rd ≠ pcReg →
  (∀ (rot : BitVec 4) (imm : BitVec 8), exec (.addImm c sf rn rd rot imm) s =
      .next (sumFlagged sf (readWide s rn) (operandImm s rot imm).value false (s.setReg rd (sumOf (readWide s rn) (operandImm s rot imm).value false)))) ∧
  (∀ (amount : BitVec 5) (sh : ShiftType) (rm : Reg), exec (.addReg c sf rn rd amount sh rm) s =
      .next (sumFlagged sf (readWide s rn) (operandReg s amount sh rm).value false (s.setReg rd (sumOf (readWide s rn) (operandReg s amount sh rm).value false)))) ∧
  (∀ (rs : Reg) (sh : ShiftType) (rm : Reg), rn ≠ pcReg → rs ≠ pcReg → rm ≠ pcReg → exec (.addRsr c sf rn rd rs sh rm) s =
      .next (sumFlagged sf (readWide s rn) (operandRsr s rs sh rm).value false (s.setReg rd (sumOf (readWide s rn) (operandRsr s rs sh rm).value false)))) ∧
  (∀ (rot : BitVec 4) (imm : BitVec 8), exec (.adcImm c sf rn rd rot imm) s =
      .next (sumFlagged sf (readWide s rn) (operandImm s rot imm).value (flagC s) (s.setReg rd (sumOf (readWide s rn) (operandImm s rot imm).value (flagC s))))) ∧
  (∀ (amount : BitVec 5) (sh : ShiftType) (rm : Reg), exec (.adcReg c sf rn rd amount sh rm) s =
      .next (sumFlagged sf (readWide s rn) (operandReg s amount sh rm).value (flagC s) (s.setReg rd (sumOf (readWide s rn) (operandReg s amount sh rm).value (flagC s))))) ∧
  (∀ (rs : Reg) (sh : ShiftType) (rm : Reg), rn ≠ pcReg → rs ≠ pcReg → rm ≠ pcReg → exec (.adcRsr c sf rn rd rs sh rm) s =
      .next (sumFlagged sf (readWide s rn) (operandRsr s rs sh rm).value (flagC s) (s.setReg rd (sumOf (readWide s rn) (operandRsr s rs sh rm).value (flagC s))))) ∧
  (∀ (rot : BitVec 4) (imm : BitVec 8), exec (.subImm c sf rn rd rot imm) s =
      .next (differenceFlagged sf (readWide s rn) (operandImm s rot imm).value true (s.setReg rd (differenceOf (readWide s rn) (operandImm s rot imm).value true)))) ∧
  (∀ (amount : BitVec 5) (sh : ShiftType) (rm : Reg), exec (.subReg c sf rn rd amount sh rm) s =
      .next (differenceFlagged sf (readWide s rn) (operandReg s amount sh rm).value true (s.setReg rd (differenceOf (readWide s rn) (operandReg s amount sh rm).value true)))) ∧
  (∀ (rs : Reg) (sh : ShiftType) (rm : Reg), rn ≠ pcReg → rs ≠ pcReg → rm ≠ pcReg → exec (.subRsr c sf rn rd rs sh rm) s =
      .next (differenceFlagged sf (readWide s rn) (operandRsr s rs sh rm).value true (s.setReg rd (differenceOf (readWide s rn) (operandRsr s rs sh rm).value true)))) ∧
  (∀ (rot : BitVec 4) (imm : BitVec 8), exec (.sbcImm c sf rn rd rot imm) s =
      .next (differenceFlagged sf (readWide s rn) (operandImm s rot imm).value (flagC s) (s.setReg rd (differenceOf (readWide s rn) (operandImm s rot imm).value (flagC s))))) ∧
  (∀ (amount : BitVec 5) (sh : ShiftType) (rm : Reg), exec (.sbcReg c sf rn rd amount sh rm) s =
      .next (differenceFlagged sf (readWide s rn) (operandReg s amount sh rm).value (flagC s) (s.setReg rd (differenceOf (readWide s rn) (operandReg s amount sh rm).value (flagC s))))) ∧
  (∀ (rs : Reg) (sh : ShiftType) (rm : Reg), rn ≠ pcReg → rs ≠ pcReg → rm ≠ pcReg → exec (.sbcRsr c sf rn rd rs sh rm) s =
      .next (differenceFlagged sf (readWide s rn) (operandRsr s rs sh rm).value (flagC s) (s.setReg rd (differenceOf (readWide s rn) (operandRsr s rs sh rm).value (flagC s))))) ∧
  (∀ (rot : BitVec 4) (imm : BitVec 8), exec (.rsbImm c sf rn rd rot imm) s =
      .next (differenceFlagged sf (operandImm s rot imm).value (readWide s rn) true (s.setReg rd (differenceOf (operandImm s rot imm).value (readWide s rn) true)))) ∧
  (∀ (amount : BitVec 5) (sh : ShiftType) (rm : Reg), exec (.rsbReg c sf rn rd amount sh rm) s =
      .next (differenceFlagged sf (operandReg s amount sh rm).value (readWide s rn) true (s.setReg rd (differenceOf (operandReg s amount sh rm).value (readWide s rn) true)))) ∧
  (∀ (rs : Reg) (sh : ShiftType) (rm : Reg), rn ≠ pcReg → rs ≠ pcReg → rm ≠ pcReg → exec (.rsbRsr c sf rn rd rs sh rm) s =
      .next (differenceFlagged sf (operandRsr s rs sh rm).value (readWide s rn) true (s.setReg rd (differenceOf (operandRsr s rs sh rm).value (readWide s rn) true)))) ∧
  (∀ (rot : BitVec 4) (imm : BitVec 8), exec (.rscImm c sf rn rd rot imm) s =
      .next (differenceFlagged sf (operandImm s rot imm).value (readWide s rn) (flagC s) (s.setReg rd (differenceOf (operandImm s rot imm).value (readWide s rn) (flagC s))))) ∧
  (∀ (amount : BitVec 5) (sh : ShiftType) (rm : Reg), exec (.rscReg c sf rn rd amount sh rm) s =
      .next (differenceFlagged sf (operandReg s amount sh rm).value (readWide s rn) (flagC s) (s.setReg rd (differenceOf (operandReg s amount sh rm).value (readWide s rn) (flagC s))))) ∧
  (∀ (rs : Reg) (sh : ShiftType) (rm : Reg), rn ≠ pcReg → rs ≠ pcReg → rm ≠ pcReg → exec (.rscRsr c sf rn rd rs sh rm) s =
      .next (differenceFlagged sf (operandRsr s rs sh rm).value (readWide s rn) (flagC s) (s.setReg rd (differenceOf (operandRsr s rs sh rm).value (readWide s rn) (flagC s)))))

/-- Wide TST, TEQ, CMP, CMN write the four flags of their relation and no register, whatever Rd below 15
(41_wide_data_processing.md R183, 41_wide_data_processing.md R184, 41_wide_data_processing.md R185,
41_wide_data_processing.md R186). -/
def Obligations.WideCompares : Prop :=
  ∀ (c : Cond) (rn rd : Reg) (s : State), condPassed c s = true → rd ≠ pcReg →
  (∀ (rot : BitVec 4) (imm : BitVec 8), exec (.tstImm c rn rd rot imm) s =
      .next (logicFlagged true (readWide s rn &&& (operandImm s rot imm).value) (operandImm s rot imm).carry s)) ∧
  (∀ (amount : BitVec 5) (sh : ShiftType) (rm : Reg), exec (.tstReg c rn rd amount sh rm) s =
      .next (logicFlagged true (readWide s rn &&& (operandReg s amount sh rm).value) (operandReg s amount sh rm).carry s)) ∧
  (∀ (rs : Reg) (sh : ShiftType) (rm : Reg), rn ≠ pcReg → rs ≠ pcReg → rm ≠ pcReg → exec (.tstRsr c rn rd rs sh rm) s =
      .next (logicFlagged true (readWide s rn &&& (operandRsr s rs sh rm).value) (operandRsr s rs sh rm).carry s)) ∧
  (∀ (rot : BitVec 4) (imm : BitVec 8), exec (.teqImm c rn rd rot imm) s =
      .next (logicFlagged true (readWide s rn ^^^ (operandImm s rot imm).value) (operandImm s rot imm).carry s)) ∧
  (∀ (amount : BitVec 5) (sh : ShiftType) (rm : Reg), exec (.teqReg c rn rd amount sh rm) s =
      .next (logicFlagged true (readWide s rn ^^^ (operandReg s amount sh rm).value) (operandReg s amount sh rm).carry s)) ∧
  (∀ (rs : Reg) (sh : ShiftType) (rm : Reg), rn ≠ pcReg → rs ≠ pcReg → rm ≠ pcReg → exec (.teqRsr c rn rd rs sh rm) s =
      .next (logicFlagged true (readWide s rn ^^^ (operandRsr s rs sh rm).value) (operandRsr s rs sh rm).carry s)) ∧
  (∀ (rot : BitVec 4) (imm : BitVec 8), exec (.cmpImm c rn rd rot imm) s =
      .next (differenceFlagged true (readWide s rn) (operandImm s rot imm).value true s)) ∧
  (∀ (amount : BitVec 5) (sh : ShiftType) (rm : Reg), exec (.cmpReg c rn rd amount sh rm) s =
      .next (differenceFlagged true (readWide s rn) (operandReg s amount sh rm).value true s)) ∧
  (∀ (rs : Reg) (sh : ShiftType) (rm : Reg), rn ≠ pcReg → rs ≠ pcReg → rm ≠ pcReg → exec (.cmpRsr c rn rd rs sh rm) s =
      .next (differenceFlagged true (readWide s rn) (operandRsr s rs sh rm).value true s)) ∧
  (∀ (rot : BitVec 4) (imm : BitVec 8), exec (.cmnImm c rn rd rot imm) s =
      .next (sumFlagged true (readWide s rn) (operandImm s rot imm).value false s)) ∧
  (∀ (amount : BitVec 5) (sh : ShiftType) (rm : Reg), exec (.cmnReg c rn rd amount sh rm) s =
      .next (sumFlagged true (readWide s rn) (operandReg s amount sh rm).value false s)) ∧
  (∀ (rs : Reg) (sh : ShiftType) (rm : Reg), rn ≠ pcReg → rs ≠ pcReg → rm ≠ pcReg → exec (.cmnRsr c rn rd rs sh rm) s =
      .next (sumFlagged true (readWide s rn) (operandRsr s rs sh rm).value false s))

/-- A non-compare with Rd = 15 and S = 0 branches to its result masked to a word boundary, in wide mode
(41_wide_data_processing.md R172). -/
def Obligations.WideDataProcessingBranches : Prop :=
  ∀ (c : Cond) (rn : Reg) (s : State), condPassed c s = true →
  (∀ (rot : BitVec 4) (imm : BitVec 8), exec (.andImm c false rn pcReg rot imm) s =
      .next (s.setPc ((readWide s rn &&& (operandImm s rot imm).value) &&& 0xFFFFFFFC#32))) ∧
  (∀ (amount : BitVec 5) (sh : ShiftType) (rm : Reg), exec (.andReg c false rn pcReg amount sh rm) s =
      .next (s.setPc ((readWide s rn &&& (operandReg s amount sh rm).value) &&& 0xFFFFFFFC#32))) ∧
  (∀ (rot : BitVec 4) (imm : BitVec 8), exec (.eorImm c false rn pcReg rot imm) s =
      .next (s.setPc ((readWide s rn ^^^ (operandImm s rot imm).value) &&& 0xFFFFFFFC#32))) ∧
  (∀ (amount : BitVec 5) (sh : ShiftType) (rm : Reg), exec (.eorReg c false rn pcReg amount sh rm) s =
      .next (s.setPc ((readWide s rn ^^^ (operandReg s amount sh rm).value) &&& 0xFFFFFFFC#32))) ∧
  (∀ (rot : BitVec 4) (imm : BitVec 8), exec (.orrImm c false rn pcReg rot imm) s =
      .next (s.setPc ((readWide s rn ||| (operandImm s rot imm).value) &&& 0xFFFFFFFC#32))) ∧
  (∀ (amount : BitVec 5) (sh : ShiftType) (rm : Reg), exec (.orrReg c false rn pcReg amount sh rm) s =
      .next (s.setPc ((readWide s rn ||| (operandReg s amount sh rm).value) &&& 0xFFFFFFFC#32))) ∧
  (∀ (rot : BitVec 4) (imm : BitVec 8), exec (.bicImm c false rn pcReg rot imm) s =
      .next (s.setPc ((readWide s rn &&& ~~~(operandImm s rot imm).value) &&& 0xFFFFFFFC#32))) ∧
  (∀ (amount : BitVec 5) (sh : ShiftType) (rm : Reg), exec (.bicReg c false rn pcReg amount sh rm) s =
      .next (s.setPc ((readWide s rn &&& ~~~(operandReg s amount sh rm).value) &&& 0xFFFFFFFC#32))) ∧
  (∀ (rot : BitVec 4) (imm : BitVec 8), exec (.movImm c false rn pcReg rot imm) s =
      .next (s.setPc (((operandImm s rot imm).value) &&& 0xFFFFFFFC#32))) ∧
  (∀ (amount : BitVec 5) (sh : ShiftType) (rm : Reg), exec (.movReg c false rn pcReg amount sh rm) s =
      .next (s.setPc (((operandReg s amount sh rm).value) &&& 0xFFFFFFFC#32))) ∧
  (∀ (rot : BitVec 4) (imm : BitVec 8), exec (.mvnImm c false rn pcReg rot imm) s =
      .next (s.setPc ((~~~(operandImm s rot imm).value) &&& 0xFFFFFFFC#32))) ∧
  (∀ (amount : BitVec 5) (sh : ShiftType) (rm : Reg), exec (.mvnReg c false rn pcReg amount sh rm) s =
      .next (s.setPc ((~~~(operandReg s amount sh rm).value) &&& 0xFFFFFFFC#32))) ∧
  (∀ (rot : BitVec 4) (imm : BitVec 8), exec (.addImm c false rn pcReg rot imm) s =
      .next (s.setPc ((sumOf (readWide s rn) (operandImm s rot imm).value false) &&& 0xFFFFFFFC#32))) ∧
  (∀ (amount : BitVec 5) (sh : ShiftType) (rm : Reg), exec (.addReg c false rn pcReg amount sh rm) s =
      .next (s.setPc ((sumOf (readWide s rn) (operandReg s amount sh rm).value false) &&& 0xFFFFFFFC#32))) ∧
  (∀ (rot : BitVec 4) (imm : BitVec 8), exec (.adcImm c false rn pcReg rot imm) s =
      .next (s.setPc ((sumOf (readWide s rn) (operandImm s rot imm).value (flagC s)) &&& 0xFFFFFFFC#32))) ∧
  (∀ (amount : BitVec 5) (sh : ShiftType) (rm : Reg), exec (.adcReg c false rn pcReg amount sh rm) s =
      .next (s.setPc ((sumOf (readWide s rn) (operandReg s amount sh rm).value (flagC s)) &&& 0xFFFFFFFC#32))) ∧
  (∀ (rot : BitVec 4) (imm : BitVec 8), exec (.subImm c false rn pcReg rot imm) s =
      .next (s.setPc ((differenceOf (readWide s rn) (operandImm s rot imm).value true) &&& 0xFFFFFFFC#32))) ∧
  (∀ (amount : BitVec 5) (sh : ShiftType) (rm : Reg), exec (.subReg c false rn pcReg amount sh rm) s =
      .next (s.setPc ((differenceOf (readWide s rn) (operandReg s amount sh rm).value true) &&& 0xFFFFFFFC#32))) ∧
  (∀ (rot : BitVec 4) (imm : BitVec 8), exec (.sbcImm c false rn pcReg rot imm) s =
      .next (s.setPc ((differenceOf (readWide s rn) (operandImm s rot imm).value (flagC s)) &&& 0xFFFFFFFC#32))) ∧
  (∀ (amount : BitVec 5) (sh : ShiftType) (rm : Reg), exec (.sbcReg c false rn pcReg amount sh rm) s =
      .next (s.setPc ((differenceOf (readWide s rn) (operandReg s amount sh rm).value (flagC s)) &&& 0xFFFFFFFC#32))) ∧
  (∀ (rot : BitVec 4) (imm : BitVec 8), exec (.rsbImm c false rn pcReg rot imm) s =
      .next (s.setPc ((differenceOf (operandImm s rot imm).value (readWide s rn) true) &&& 0xFFFFFFFC#32))) ∧
  (∀ (amount : BitVec 5) (sh : ShiftType) (rm : Reg), exec (.rsbReg c false rn pcReg amount sh rm) s =
      .next (s.setPc ((differenceOf (operandReg s amount sh rm).value (readWide s rn) true) &&& 0xFFFFFFFC#32))) ∧
  (∀ (rot : BitVec 4) (imm : BitVec 8), exec (.rscImm c false rn pcReg rot imm) s =
      .next (s.setPc ((differenceOf (operandImm s rot imm).value (readWide s rn) (flagC s)) &&& 0xFFFFFFFC#32))) ∧
  (∀ (amount : BitVec 5) (sh : ShiftType) (rm : Reg), exec (.rscReg c false rn pcReg amount sh rm) s =
      .next (s.setPc ((differenceOf (operandReg s amount sh rm).value (readWide s rn) (flagC s)) &&& 0xFFFFFFFC#32)))

/-- Wide MRS copies the status word, and with R = 1 or Rd = 15 stops as its rule says; CLZ counts leading zeros,
MUL gives the low 32 bits and with S = 1 writes N and Z only (42_wide_misc_multiply.md R200,
42_wide_misc_multiply.md R206, 42_wide_misc_multiply.md R210). -/
def Obligations.WideStatusCountMultiply : Prop :=
  ∀ (c : Cond) (s : State), condPassed c s = true →
    (∀ rd : Reg, rd ≠ pcReg → exec (.mrs c false rd) s = .next (s.setReg rd s.status)) ∧
    (∀ rd : Reg, rd ≠ pcReg →
      faultsWith (.unimplementedInstruction s.iaddr s.instr) s (exec (.mrs c true rd) s)) ∧
    (∀ r : Bool, exec (.mrs c r pcReg) s =
      .refused (.registerCombination s.iaddr s.instr (s.setRun (.refused s.iaddr s.instr)))) ∧
    (∀ rd rm : Reg, rd ≠ pcReg → rm ≠ pcReg → s.reg rm = 0#32 → exec (.clz c rd rm) s = .next (s.setReg rd 32#32)) ∧
    (∀ (rd rm : Reg) (k : Nat), rd ≠ pcReg → rm ≠ pcReg → 2 ^ k ≤ (s.reg rm).toNat → (s.reg rm).toNat < 2 ^ (k + 1) →
      exec (.clz c rd rm) s = .next (s.setReg rd (BitVec.ofNat 32 (31 - k)))) ∧
    (∀ (sf : Bool) (rd rs rm : Reg), rd ≠ pcReg → rs ≠ pcReg → rm ≠ pcReg →
      exec (.mul c sf rd rs rm) s =
        .next (logicFlagged sf (BitVec.ofNat 32 ((s.reg rm).toNat * (s.reg rs).toNat)) (flagC s)
          (s.setReg rd (BitVec.ofNat 32 ((s.reg rm).toNat * (s.reg rs).toNat)))))

/-- Wide BX and BLX: an even target stays wide, an odd one faults, or switches where the design is bidirectional
(42_wide_misc_multiply.md R204, 42_wide_misc_multiply.md R205, 48_mode_switch.md R421). The rules give a granted
switch the outcome ModeSwitch; that the next state is already in compact mode, with the transfer of R421 done, is
the model's choice (DEDUCED, log entry 10). -/
def Obligations.WideExchange : Prop :=
  ∀ (c : Cond) (rm : Reg) (s : State), condPassed c s = true →
    (bit (readWide s rm) 0 = false → exec (.bx c rm) s = .next (s.setPc (readWide s rm))) ∧
    (bit (readWide s rm) 0 = true → s.params.bidirSwitch = true →
      exec (.bx c rm) s = .next ((s.setPc (readWide s rm &&& 0xFFFFFFFE#32)).setMode .compact)) ∧
    (bit (readWide s rm) 0 = true → s.params.bidirSwitch = false →
      faultsWith (.modeSwitchUnsupported s.iaddr s.instr (readWide s rm)) s (exec (.bx c rm) s)) ∧
    (rm ≠ pcReg → bit (s.reg rm) 0 = false →
      exec (.blxReg c rm) s = .next ((s.setReg lrReg (s.iaddr + 4#32)).setPc (s.reg rm))) ∧
    (rm ≠ pcReg → bit (s.reg rm) 0 = true → s.params.bidirSwitch = true →
      exec (.blxReg c rm) s =
        .next (((s.setReg lrReg (s.iaddr + 4#32)).setPc (s.reg rm &&& 0xFFFFFFFE#32)).setMode .compact)) ∧
    (rm ≠ pcReg → bit (s.reg rm) 0 = true → s.params.bidirSwitch = false →
      faultsWith (.modeSwitchUnsupported s.iaddr s.instr (s.reg rm)) s (exec (.blxReg c rm) s))

/-- Wide B and BL go to iaddr + 8 plus four times the signed immediate; SWI with another immediate does nothing
(44_wide_branch_block_swi.md R260, 44_wide_branch_block_swi.md R261, 44_wide_branch_block_swi.md R268). -/
def Obligations.WideBranches : Prop :=
  ∀ (c : Cond) (imm24 : BitVec 24) (s : State), condPassed c s = true →
    exec (.b c imm24) s = .next (s.setPc (BitVec.ofInt 32 (s.iaddr.toInt + 8 + 4 * imm24.toInt))) ∧
    exec (.bl c imm24) s =
      .next ((s.setReg lrReg (s.iaddr + 4#32)).setPc (BitVec.ofInt 32 (s.iaddr.toInt + 8 + 4 * imm24.toInt))) ∧
    (s.iaddr.toNat % 4 = 0 → (BitVec.ofInt 32 (s.iaddr.toInt + 8 + 4 * imm24.toInt)).toNat % 4 = 0) ∧
    exec (.swiOther c imm24) s = .next s

/-- Wide LDR, LDRB, LDRT, LDRBT load Rd with the zero-extended little-endian value and write back the base, or
fault with nothing written (43_wide_load_store.md R235, 43_wide_load_store.md R236, 43_wide_load_store.md R238,
43_wide_load_store.md R240, 43_wide_load_store.md R242). -/
def Obligations.WideWordByteLoads : Prop :=
  ∀ (c : Cond) (p u w : Bool) (rn rd : Reg) (s : State), condPassed c s = true → rd ≠ pcReg →
  (∀ (imm12 : BitVec 12), refusedCombination (.ldrImm c p u w rn rd imm12) = false →
      (accessFault s (lsAddr s p u rn (offsetImm12 imm12)) .word = none →
        exec (.ldrImm c p u w rn rd imm12) s = .next ((lsBase s p u w rn (offsetImm12 imm12) s).setReg rd
          (memGet s.mem ((lsAddr s p u rn (offsetImm12 imm12)).toNat + 3) ++ memGet s.mem ((lsAddr s p u rn (offsetImm12 imm12)).toNat + 2) ++ memGet s.mem ((lsAddr s p u rn (offsetImm12 imm12)).toNat + 1) ++ memGet s.mem (lsAddr s p u rn (offsetImm12 imm12)).toNat))) ∧
      (∀ k, accessFault s (lsAddr s p u rn (offsetImm12 imm12)) .word = some k → faultsWith k s (exec (.ldrImm c p u w rn rd imm12) s))) ∧
  (∀ (amount : BitVec 5) (sh : ShiftType) (rm : Reg), refusedCombination (.ldrReg c p u w rn rd amount sh rm) = false →
      (accessFault s (lsAddr s p u rn (offsetScaled s amount sh rm)) .word = none →
        exec (.ldrReg c p u w rn rd amount sh rm) s = .next ((lsBase s p u w rn (offsetScaled s amount sh rm) s).setReg rd
          (memGet s.mem ((lsAddr s p u rn (offsetScaled s amount sh rm)).toNat + 3) ++ memGet s.mem ((lsAddr s p u rn (offsetScaled s amount sh rm)).toNat + 2) ++ memGet s.mem ((lsAddr s p u rn (offsetScaled s amount sh rm)).toNat + 1) ++ memGet s.mem (lsAddr s p u rn (offsetScaled s amount sh rm)).toNat))) ∧
      (∀ k, accessFault s (lsAddr s p u rn (offsetScaled s amount sh rm)) .word = some k → faultsWith k s (exec (.ldrReg c p u w rn rd amount sh rm) s))) ∧
  (∀ (imm12 : BitVec 12), refusedCombination (.ldrtImm c u rn rd imm12) = false →
      (accessFault s (lsAddr s false u rn (offsetImm12 imm12)) .word = none →
        exec (.ldrtImm c u rn rd imm12) s = .next ((lsBase s false u true rn (offsetImm12 imm12) s).setReg rd
          (memGet s.mem ((lsAddr s false u rn (offsetImm12 imm12)).toNat + 3) ++ memGet s.mem ((lsAddr s false u rn (offsetImm12 imm12)).toNat + 2) ++ memGet s.mem ((lsAddr s false u rn (offsetImm12 imm12)).toNat + 1) ++ memGet s.mem (lsAddr s false u rn (offsetImm12 imm12)).toNat))) ∧
      (∀ k, accessFault s (lsAddr s false u rn (offsetImm12 imm12)) .word = some k → faultsWith k s (exec (.ldrtImm c u rn rd imm12) s))) ∧
  (∀ (amount : BitVec 5) (sh : ShiftType) (rm : Reg), refusedCombination (.ldrtReg c u rn rd amount sh rm) = false →
      (accessFault s (lsAddr s false u rn (offsetScaled s amount sh rm)) .word = none →
        exec (.ldrtReg c u rn rd amount sh rm) s = .next ((lsBase s false u true rn (offsetScaled s amount sh rm) s).setReg rd
          (memGet s.mem ((lsAddr s false u rn (offsetScaled s amount sh rm)).toNat + 3) ++ memGet s.mem ((lsAddr s false u rn (offsetScaled s amount sh rm)).toNat + 2) ++ memGet s.mem ((lsAddr s false u rn (offsetScaled s amount sh rm)).toNat + 1) ++ memGet s.mem (lsAddr s false u rn (offsetScaled s amount sh rm)).toNat))) ∧
      (∀ k, accessFault s (lsAddr s false u rn (offsetScaled s amount sh rm)) .word = some k → faultsWith k s (exec (.ldrtReg c u rn rd amount sh rm) s))) ∧
  (∀ (imm12 : BitVec 12), refusedCombination (.ldrbImm c p u w rn rd imm12) = false →
      (accessFault s (lsAddr s p u rn (offsetImm12 imm12)) .byte = none →
        exec (.ldrbImm c p u w rn rd imm12) s = .next ((lsBase s p u w rn (offsetImm12 imm12) s).setReg rd
          ((memGet s.mem (lsAddr s p u rn (offsetImm12 imm12)).toNat).setWidth 32))) ∧
      (∀ k, accessFault s (lsAddr s p u rn (offsetImm12 imm12)) .byte = some k → faultsWith k s (exec (.ldrbImm c p u w rn rd imm12) s))) ∧
  (∀ (amount : BitVec 5) (sh : ShiftType) (rm : Reg), refusedCombination (.ldrbReg c p u w rn rd amount sh rm) = false →
      (accessFault s (lsAddr s p u rn (offsetScaled s amount sh rm)) .byte = none →
        exec (.ldrbReg c p u w rn rd amount sh rm) s = .next ((lsBase s p u w rn (offsetScaled s amount sh rm) s).setReg rd
          ((memGet s.mem (lsAddr s p u rn (offsetScaled s amount sh rm)).toNat).setWidth 32))) ∧
      (∀ k, accessFault s (lsAddr s p u rn (offsetScaled s amount sh rm)) .byte = some k → faultsWith k s (exec (.ldrbReg c p u w rn rd amount sh rm) s))) ∧
  (∀ (imm12 : BitVec 12), refusedCombination (.ldrbtImm c u rn rd imm12) = false →
      (accessFault s (lsAddr s false u rn (offsetImm12 imm12)) .byte = none →
        exec (.ldrbtImm c u rn rd imm12) s = .next ((lsBase s false u true rn (offsetImm12 imm12) s).setReg rd
          ((memGet s.mem (lsAddr s false u rn (offsetImm12 imm12)).toNat).setWidth 32))) ∧
      (∀ k, accessFault s (lsAddr s false u rn (offsetImm12 imm12)) .byte = some k → faultsWith k s (exec (.ldrbtImm c u rn rd imm12) s))) ∧
  (∀ (amount : BitVec 5) (sh : ShiftType) (rm : Reg), refusedCombination (.ldrbtReg c u rn rd amount sh rm) = false →
      (accessFault s (lsAddr s false u rn (offsetScaled s amount sh rm)) .byte = none →
        exec (.ldrbtReg c u rn rd amount sh rm) s = .next ((lsBase s false u true rn (offsetScaled s amount sh rm) s).setReg rd
          ((memGet s.mem (lsAddr s false u rn (offsetScaled s amount sh rm)).toNat).setWidth 32))) ∧
      (∀ k, accessFault s (lsAddr s false u rn (offsetScaled s amount sh rm)) .byte = some k → faultsWith k s (exec (.ldrbtReg c u rn rd amount sh rm) s)))

/-- Wide LDRH, LDRSB and register-form LDRSH load Rd with the extended value and write back the base, or fault
with nothing written (43_wide_load_store.md R235, 43_wide_load_store.md R244, 43_wide_load_store.md R246,
43_wide_load_store.md R247). -/
def Obligations.WideExtraLoads : Prop :=
  ∀ (c : Cond) (p u w : Bool) (rn rd : Reg) (s : State), condPassed c s = true → rd ≠ pcReg →
  (∀ (immH immL : BitVec 4), refusedCombination (.ldrhImm c p u w rn rd immH immL) = false →
      (accessFault s (lsAddr s p u rn (offsetSplit immH immL)) .half = none →
        exec (.ldrhImm c p u w rn rd immH immL) s = .next ((lsBase s p u w rn (offsetSplit immH immL) s).setReg rd
          ((memGet s.mem ((lsAddr s p u rn (offsetSplit immH immL)).toNat + 1) ++ memGet s.mem (lsAddr s p u rn (offsetSplit immH immL)).toNat).setWidth 32))) ∧
      (∀ k, accessFault s (lsAddr s p u rn (offsetSplit immH immL)) .half = some k → faultsWith k s (exec (.ldrhImm c p u w rn rd immH immL) s))) ∧
  (∀ (rm : Reg), refusedCombination (.ldrhReg c p u w rn rd rm) = false →
      (accessFault s (lsAddr s p u rn (offsetReg s rm)) .half = none →
        exec (.ldrhReg c p u w rn rd rm) s = .next ((lsBase s p u w rn (offsetReg s rm) s).setReg rd
          ((memGet s.mem ((lsAddr s p u rn (offsetReg s rm)).toNat + 1) ++ memGet s.mem (lsAddr s p u rn (offsetReg s rm)).toNat).setWidth 32))) ∧
      (∀ k, accessFault s (lsAddr s p u rn (offsetReg s rm)) .half = some k → faultsWith k s (exec (.ldrhReg c p u w rn rd rm) s))) ∧
  (∀ (immH immL : BitVec 4), refusedCombination (.ldrsbImm c p u w rn rd immH immL) = false →
      (accessFault s (lsAddr s p u rn (offsetSplit immH immL)) .byte = none →
        exec (.ldrsbImm c p u w rn rd immH immL) s = .next ((lsBase s p u w rn (offsetSplit immH immL) s).setReg rd
          ((memGet s.mem (lsAddr s p u rn (offsetSplit immH immL)).toNat).signExtend 32))) ∧
      (∀ k, accessFault s (lsAddr s p u rn (offsetSplit immH immL)) .byte = some k → faultsWith k s (exec (.ldrsbImm c p u w rn rd immH immL) s))) ∧
  (∀ (rm : Reg), refusedCombination (.ldrsbReg c p u w rn rd rm) = false →
      (accessFault s (lsAddr s p u rn (offsetReg s rm)) .byte = none →
        exec (.ldrsbReg c p u w rn rd rm) s = .next ((lsBase s p u w rn (offsetReg s rm) s).setReg rd
          ((memGet s.mem (lsAddr s p u rn (offsetReg s rm)).toNat).signExtend 32))) ∧
      (∀ k, accessFault s (lsAddr s p u rn (offsetReg s rm)) .byte = some k → faultsWith k s (exec (.ldrsbReg c p u w rn rd rm) s))) ∧
  (∀ (rm : Reg), refusedCombination (.ldrshReg c p u w rn rd rm) = false →
      (accessFault s (lsAddr s p u rn (offsetReg s rm)) .half = none →
        exec (.ldrshReg c p u w rn rd rm) s = .next ((lsBase s p u w rn (offsetReg s rm) s).setReg rd
          ((memGet s.mem ((lsAddr s p u rn (offsetReg s rm)).toNat + 1) ++ memGet s.mem (lsAddr s p u rn (offsetReg s rm)).toNat).signExtend 32))) ∧
      (∀ k, accessFault s (lsAddr s p u rn (offsetReg s rm)) .half = some k → faultsWith k s (exec (.ldrshReg c p u w rn rd rm) s)))

/-- Wide LDR to register 15 sets the program counter to the loaded word masked to a word boundary, or raises the
fault of its access with nothing written (10_state.md R25, 43_wide_load_store.md R235, 43_wide_load_store.md
R236). -/
def Obligations.WideLoadToPc : Prop :=
  ∀ (c : Cond) (p u w : Bool) (rn : Reg) (s : State), condPassed c s = true →
  (∀ imm12 : BitVec 12, refusedCombination (.ldrImm c p u w rn pcReg imm12) = false →
      (accessFault s (lsAddr s p u rn (offsetImm12 imm12)) .word = none →
        exec (.ldrImm c p u w rn pcReg imm12) s = .next ((lsBase s p u w rn (offsetImm12 imm12) s).setPc
          ((memGet s.mem ((lsAddr s p u rn (offsetImm12 imm12)).toNat + 3) ++ memGet s.mem ((lsAddr s p u rn (offsetImm12 imm12)).toNat + 2) ++
            memGet s.mem ((lsAddr s p u rn (offsetImm12 imm12)).toNat + 1) ++ memGet s.mem (lsAddr s p u rn (offsetImm12 imm12)).toNat) &&& 0xFFFFFFFC#32))) ∧
      (∀ k, accessFault s (lsAddr s p u rn (offsetImm12 imm12)) .word = some k → faultsWith k s (exec (.ldrImm c p u w rn pcReg imm12) s))) ∧
  (∀ (amount : BitVec 5) (sh : ShiftType) (rm : Reg), refusedCombination (.ldrReg c p u w rn pcReg amount sh rm) = false →
      (accessFault s (lsAddr s p u rn (offsetScaled s amount sh rm)) .word = none →
        exec (.ldrReg c p u w rn pcReg amount sh rm) s = .next ((lsBase s p u w rn (offsetScaled s amount sh rm) s).setPc
          ((memGet s.mem ((lsAddr s p u rn (offsetScaled s amount sh rm)).toNat + 3) ++ memGet s.mem ((lsAddr s p u rn (offsetScaled s amount sh rm)).toNat + 2) ++
            memGet s.mem ((lsAddr s p u rn (offsetScaled s amount sh rm)).toNat + 1) ++ memGet s.mem (lsAddr s p u rn (offsetScaled s amount sh rm)).toNat) &&& 0xFFFFFFFC#32))) ∧
      (∀ k, accessFault s (lsAddr s p u rn (offsetScaled s amount sh rm)) .word = some k → faultsWith k s (exec (.ldrReg c p u w rn pcReg amount sh rm) s)))

/-- Wide STR, STRB, STRH, STRT, STRBT store the low bytes of Rd and write back the base, or fault with nothing
written (43_wide_load_store.md R235, 43_wide_load_store.md R237, 43_wide_load_store.md R239, 43_wide_load_store.md
R241, 43_wide_load_store.md R243, 43_wide_load_store.md R245). -/
def Obligations.WideStores : Prop :=
  ∀ (c : Cond) (p u w : Bool) (rn rd : Reg) (s : State), condPassed c s = true →
  (∀ (imm12 : BitVec 12), refusedCombination (.strImm c p u w rn rd imm12) = false →
      (accessFault s (lsAddr s p u rn (offsetImm12 imm12)) .word = none →
        exec (.strImm c p u w rn rd imm12) s = .next (lsBase s p u w rn (offsetImm12 imm12)
          (s.setMem (memStore s.mem (lsAddr s p u rn (offsetImm12 imm12)).toNat (readWide s rd) .word)))) ∧
      (∀ k, accessFault s (lsAddr s p u rn (offsetImm12 imm12)) .word = some k → faultsWith k s (exec (.strImm c p u w rn rd imm12) s))) ∧
  (∀ (amount : BitVec 5) (sh : ShiftType) (rm : Reg), refusedCombination (.strReg c p u w rn rd amount sh rm) = false →
      (accessFault s (lsAddr s p u rn (offsetScaled s amount sh rm)) .word = none →
        exec (.strReg c p u w rn rd amount sh rm) s = .next (lsBase s p u w rn (offsetScaled s amount sh rm)
          (s.setMem (memStore s.mem (lsAddr s p u rn (offsetScaled s amount sh rm)).toNat (readWide s rd) .word)))) ∧
      (∀ k, accessFault s (lsAddr s p u rn (offsetScaled s amount sh rm)) .word = some k → faultsWith k s (exec (.strReg c p u w rn rd amount sh rm) s))) ∧
  (∀ (imm12 : BitVec 12), refusedCombination (.strtImm c u rn rd imm12) = false →
      (accessFault s (lsAddr s false u rn (offsetImm12 imm12)) .word = none →
        exec (.strtImm c u rn rd imm12) s = .next (lsBase s false u true rn (offsetImm12 imm12)
          (s.setMem (memStore s.mem (lsAddr s false u rn (offsetImm12 imm12)).toNat (readWide s rd) .word)))) ∧
      (∀ k, accessFault s (lsAddr s false u rn (offsetImm12 imm12)) .word = some k → faultsWith k s (exec (.strtImm c u rn rd imm12) s))) ∧
  (∀ (amount : BitVec 5) (sh : ShiftType) (rm : Reg), refusedCombination (.strtReg c u rn rd amount sh rm) = false →
      (accessFault s (lsAddr s false u rn (offsetScaled s amount sh rm)) .word = none →
        exec (.strtReg c u rn rd amount sh rm) s = .next (lsBase s false u true rn (offsetScaled s amount sh rm)
          (s.setMem (memStore s.mem (lsAddr s false u rn (offsetScaled s amount sh rm)).toNat (readWide s rd) .word)))) ∧
      (∀ k, accessFault s (lsAddr s false u rn (offsetScaled s amount sh rm)) .word = some k → faultsWith k s (exec (.strtReg c u rn rd amount sh rm) s))) ∧
  (∀ (imm12 : BitVec 12), refusedCombination (.strbImm c p u w rn rd imm12) = false →
      (accessFault s (lsAddr s p u rn (offsetImm12 imm12)) .byte = none →
        exec (.strbImm c p u w rn rd imm12) s = .next (lsBase s p u w rn (offsetImm12 imm12)
          (s.setMem (memStore s.mem (lsAddr s p u rn (offsetImm12 imm12)).toNat (readWide s rd) .byte)))) ∧
      (∀ k, accessFault s (lsAddr s p u rn (offsetImm12 imm12)) .byte = some k → faultsWith k s (exec (.strbImm c p u w rn rd imm12) s))) ∧
  (∀ (amount : BitVec 5) (sh : ShiftType) (rm : Reg), refusedCombination (.strbReg c p u w rn rd amount sh rm) = false →
      (accessFault s (lsAddr s p u rn (offsetScaled s amount sh rm)) .byte = none →
        exec (.strbReg c p u w rn rd amount sh rm) s = .next (lsBase s p u w rn (offsetScaled s amount sh rm)
          (s.setMem (memStore s.mem (lsAddr s p u rn (offsetScaled s amount sh rm)).toNat (readWide s rd) .byte)))) ∧
      (∀ k, accessFault s (lsAddr s p u rn (offsetScaled s amount sh rm)) .byte = some k → faultsWith k s (exec (.strbReg c p u w rn rd amount sh rm) s))) ∧
  (∀ (imm12 : BitVec 12), refusedCombination (.strbtImm c u rn rd imm12) = false →
      (accessFault s (lsAddr s false u rn (offsetImm12 imm12)) .byte = none →
        exec (.strbtImm c u rn rd imm12) s = .next (lsBase s false u true rn (offsetImm12 imm12)
          (s.setMem (memStore s.mem (lsAddr s false u rn (offsetImm12 imm12)).toNat (readWide s rd) .byte)))) ∧
      (∀ k, accessFault s (lsAddr s false u rn (offsetImm12 imm12)) .byte = some k → faultsWith k s (exec (.strbtImm c u rn rd imm12) s))) ∧
  (∀ (amount : BitVec 5) (sh : ShiftType) (rm : Reg), refusedCombination (.strbtReg c u rn rd amount sh rm) = false →
      (accessFault s (lsAddr s false u rn (offsetScaled s amount sh rm)) .byte = none →
        exec (.strbtReg c u rn rd amount sh rm) s = .next (lsBase s false u true rn (offsetScaled s amount sh rm)
          (s.setMem (memStore s.mem (lsAddr s false u rn (offsetScaled s amount sh rm)).toNat (readWide s rd) .byte)))) ∧
      (∀ k, accessFault s (lsAddr s false u rn (offsetScaled s amount sh rm)) .byte = some k → faultsWith k s (exec (.strbtReg c u rn rd amount sh rm) s))) ∧
  (∀ (immH immL : BitVec 4), refusedCombination (.strhImm c p u w rn rd immH immL) = false →
      (accessFault s (lsAddr s p u rn (offsetSplit immH immL)) .half = none →
        exec (.strhImm c p u w rn rd immH immL) s = .next (lsBase s p u w rn (offsetSplit immH immL)
          (s.setMem (memStore s.mem (lsAddr s p u rn (offsetSplit immH immL)).toNat (readWide s rd) .half)))) ∧
      (∀ k, accessFault s (lsAddr s p u rn (offsetSplit immH immL)) .half = some k → faultsWith k s (exec (.strhImm c p u w rn rd immH immL) s))) ∧
  (∀ (rm : Reg), refusedCombination (.strhReg c p u w rn rd rm) = false →
      (accessFault s (lsAddr s p u rn (offsetReg s rm)) .half = none →
        exec (.strhReg c p u w rn rd rm) s = .next (lsBase s p u w rn (offsetReg s rm)
          (s.setMem (memStore s.mem (lsAddr s p u rn (offsetReg s rm)).toNat (readWide s rd) .half)))) ∧
      (∀ k, accessFault s (lsAddr s p u rn (offsetReg s rm)) .half = some k → faultsWith k s (exec (.strhReg c p u w rn rd rm) s)))

/-- An instruction whose condition fails has no effect and no fault (40_cond_shifter_alu.md R132, 60_exceptions.md
R446). For the unimplemented wide rows (msrReg, msrImm, bxj, qadd, qsub, qdadd, qdsub, bkpt, smlaXY, smlawSmulw,
smlalXY, smulXY, mla, umaal, umull, umlal, smull, smlal, swp, swpb, strex, ldrex, ldrdImm, ldrdReg, strdImm,
strdReg, ldrshImm, media, stm, ldm, copMem, copReg) this is the one way the spec lets them complete;
UnimplementedExactly says that they fault otherwise. -/
def Obligations.FailedConditionDoesNothing : Prop :=
  ∀ (i : Instr) (c : Cond) (s : State), condOf i = some c → condPassed c s = false → exec i s = .next s

/-- Exactly the register combinations of the refusal table are refused, once the condition passes, with nothing
written (60_exceptions.md R446, 60_exceptions.md R463). -/
def Obligations.RefusedExactly : Prop :=
  ∀ (i : Instr) (s : State) (r : Refusal), exec i s = .refused r ↔
    conditionPasses i s = true ∧ refusedCombination i = true ∧
      r = .registerCombination s.iaddr s.instr (s.setRun (.refused s.iaddr s.instr))

/-- UnimplementedInstruction is raised by exactly the instructions and field values the spec lists, with nothing
written (30_encoding.md R105, 41_wide_data_processing.md R173, 41_wide_data_processing.md R174,
42_wide_misc_multiply.md R200, 60_exceptions.md R442, 60_exceptions.md R444, 60_exceptions.md R446). -/
def Obligations.UnimplementedExactly : Prop :=
  ∀ (i : Instr) (s : State),
    (conditionPasses i s = true → refusedCombination i = false → lacksImplementation i = true →
      faultsWith (.unimplementedInstruction s.iaddr s.instr) s (exec i s)) ∧
    (∀ a w t, exec i s = .fault (.unimplementedInstruction a w t) →
      conditionPasses i s = true ∧ refusedCombination i = false ∧ lacksImplementation i = true)

/-- Compact BKPT, SETEND, CPS, the BLX suffix and other SWI raise UnimplementedInstruction; the unallocated
reversal and the conditional branch with condition 1110 raise UndefinedInstruction (47_compact_misc_branch.md
R389, 47_compact_misc_branch.md R390, 47_compact_misc_branch.md R391, 47_compact_misc_branch.md R392,
47_compact_misc_branch.md R396, 47_compact_misc_branch.md R400, 47_compact_misc_branch.md R402). -/
def Obligations.CompactStops : Prop :=
  ∀ s : State,
    (∀ imm8 : BitVec 8, faultsWith (.unimplementedInstruction s.iaddr s.instr) s (exec (.cBkpt imm8) s)) ∧
    (∀ e : Bool, faultsWith (.unimplementedInstruction s.iaddr s.instr) s (exec (.cSetend e) s)) ∧
    (∀ m a i f : Bool, faultsWith (.unimplementedInstruction s.iaddr s.instr) s (exec (.cCps m a i f) s)) ∧
    (∀ imm11 : BitVec 11, faultsWith (.unimplementedInstruction s.iaddr s.instr) s (exec (.cBlxSuffix imm11) s)) ∧
    (∀ imm8 : BitVec 8, faultsWith (.unimplementedInstruction s.iaddr s.instr) s (exec (.cSwiOther imm8) s)) ∧
    (∀ rm rd : LowReg, faultsWith (.undefinedInstruction s.iaddr s.instr) s (exec (.cRevUnalloc rm rd) s)) ∧
    (∀ imm8 : BitVec 8, faultsWith (.undefinedInstruction s.iaddr s.instr) s (exec (.cBcond1110 imm8) s))

/-- Only BX, BLX and POP of the program counter change the mode, to compact or by POP only in a bidirectional
design (48_mode_switch.md R421, 48_mode_switch.md R422, 48_mode_switch.md R423). The request for a switch is read
off the mode of the next state: that the transfer is part of the requesting step is the model's choice (DEDUCED,
log entry 10). -/
def Obligations.SwitchRequests : Prop :=
  ∀ (i : Instr) (s : State),
    (∀ t, exec i s = .next t → t.mode ≠ s.mode →
      switchTarget i = some t.mode ∧
      (t.mode = .compact ∨ (∃ pc list, i = .cPop pc list) → s.params.bidirSwitch = true)) ∧
    (∀ a w g t, exec i s = .fault (.modeSwitchUnsupported a w g t) →
      ((∃ c rm, i = .bx c rm ∨ i = .blxReg c rm) ∨ ∃ list, i = .cPop true list) ∧ s.params.bidirSwitch = false ∧
      a = s.iaddr ∧ w = s.instr)

/-- A faulting instruction that does one access or none changes nothing but the run state (20_memory.md R61,
60_exceptions.md R441, 60_exceptions.md R444). -/
def Obligations.FaultIsPrecise : Prop :=
  ∀ (i : Instr) (s : State) (f : Fault), mayStopPartway i = false → exec i s = .fault f →
    ∃ k, faultKind f = some k ∧ faultFinal f = s.setRun (.faulted k)

/-- In the baseline a run that is in wide mode never reaches compact mode (48_mode_switch.md R423). -/
def Obligations.BaselineStaysWide : Prop :=
  ∀ s t : State, s.mode = .wide → s.params.bidirSwitch = false → Reaches s t → t.mode = .wide

/-- Every step keeps memory in its canonical form and the segment table well-formed (20_memory.md R50, 20_memory.md
R52, 20_memory.md R55). -/
def Obligations.StepKeepsInv : Prop :=
  ∀ s t : State, Inv s → step s = .next t → Inv t

/-- The state after reset has the invariant, runs in wide mode and has its stack pointer at STACK_TOP (10_state.md
R35, 70_reset_and_hazards.md R480). -/
def Obligations.ResetHasInv : Prop :=
  Inv State.reset ∧ State.reset.run = .running ∧ State.reset.mode = .wide ∧
    State.reset.reg spReg = State.reset.params.stackTop

/-- A run never changes status bits 27:0, the segment table or the design constants (10_state.md R27, 20_memory.md
R50). -/
def Obligations.RunKeepsConfiguration : Prop :=
  ∀ s t : State, Reaches s t →
    field t.status 0 28 = field s.status 0 28 ∧ t.segs = s.segs ∧ t.params = s.params

/-- An instruction changes no register but those the spec names for it (10_state.md R23, 60_exceptions.md R451). -/
def Obligations.FrameRegisters : Prop :=
  ∀ (i : Instr) (s t : State), exec i s = .next t →
    ∀ r : Reg, r ≠ pcReg → r ∉ writtenRegs i → t.reg r = s.reg r

/-- An instruction that writes no program counter leaves it at the next instruction (10_state.md R24, 10_state.md
R25). -/
def Obligations.FramePc : Prop :=
  ∀ (i : Instr) (s t : State), exec i s = .next t → writesPc i = false → t.pc = s.pc

/-- An instruction writes the flags of its row of the flag table and no other status bit (10_state.md R27,
10_state.md R28, 40_cond_shifter_alu.md R154). -/
def Obligations.FrameFlags : Prop :=
  ∀ (i : Instr) (s t : State), exec i s = .next t →
    field t.status 0 28 = field s.status 0 28 ∧
    (flagEffect i = .none → t.status = s.status) ∧
    (flagEffect i = .nz → flagC t = flagC s ∧ flagV t = flagV s) ∧
    (flagEffect i = .nzc → flagV t = flagV s)

/-- An instruction changes no byte of memory outside the accesses it stores to (20_memory.md R66, 20_memory.md R69,
46_compact_load_store.md R365, 46_compact_load_store.md R369, 60_exceptions.md R451). -/
def Obligations.FrameMemory : Prop :=
  ∀ (i : Instr) (s t : State), exec i s = .next t →
    ∀ a : Nat, outside (storesTo i s) a → memGet t.mem a = memGet s.mem a

/-- An instruction changes no control field: segment table, constants, latched word, and the run state only in a
trap (10_state.md R31, 10_state.md R32, 20_memory.md R50, 60_exceptions.md R448, 60_exceptions.md R451). -/
def Obligations.FrameControl : Prop :=
  ∀ (i : Instr) (s t : State), exec i s = .next t →
    t.segs = s.segs ∧ t.params = s.params ∧ t.iaddr = s.iaddr ∧ t.instr = s.instr ∧
    (switchTarget i = none → t.mode = s.mode) ∧
    (isTrap i = false → t.run = s.run ∧ t.shim = s.shim ∧ t.shimCalls = s.shimCalls) ∧
    (isTrap i = true → (t.run = s.run ∨ t.run = .terminated) ∧ t.mode = s.mode ∧ t.status = s.status ∧ t.pc = s.pc)

/-- Compact LSL, LSR, ASR by immediate and LSL, LSR, ASR, ROR by register: value, N, Z, C, and V kept
(45_compact_alu.md R281, 45_compact_alu.md R282, 45_compact_alu.md R283, 45_compact_alu.md R303, 45_compact_alu.md
R304, 45_compact_alu.md R305, 45_compact_alu.md R308). -/
def Obligations.CompactShifts : Prop :=
  ∀ s : State,
  (∀ (imm5 : BitVec 5) (rm rd : LowReg), exec (.cLslImm imm5 rm rd) s =
      .next (logicFlagged true (shiftC .lsl (s.reg (lowReg rm)) imm5.toNat (flagC s)).value (shiftC .lsl (s.reg (lowReg rm)) imm5.toNat (flagC s)).carry (s.setReg (lowReg rd) (shiftC .lsl (s.reg (lowReg rm)) imm5.toNat (flagC s)).value))) ∧
  (∀ (imm5 : BitVec 5) (rm rd : LowReg), exec (.cLsrImm imm5 rm rd) s =
      .next (logicFlagged true (shiftC .lsr (s.reg (lowReg rm)) (if imm5 = 0#5 then 32 else imm5.toNat) (flagC s)).value (shiftC .lsr (s.reg (lowReg rm)) (if imm5 = 0#5 then 32 else imm5.toNat) (flagC s)).carry (s.setReg (lowReg rd) (shiftC .lsr (s.reg (lowReg rm)) (if imm5 = 0#5 then 32 else imm5.toNat) (flagC s)).value))) ∧
  (∀ (imm5 : BitVec 5) (rm rd : LowReg), exec (.cAsrImm imm5 rm rd) s =
      .next (logicFlagged true (shiftC .asr (s.reg (lowReg rm)) (if imm5 = 0#5 then 32 else imm5.toNat) (flagC s)).value (shiftC .asr (s.reg (lowReg rm)) (if imm5 = 0#5 then 32 else imm5.toNat) (flagC s)).carry (s.setReg (lowReg rd) (shiftC .asr (s.reg (lowReg rm)) (if imm5 = 0#5 then 32 else imm5.toNat) (flagC s)).value))) ∧
  (∀ (rm rd : LowReg), exec (.cLsl rm rd) s =
      .next (logicFlagged true (shiftC .lsl (s.reg (lowReg rd)) ((s.reg (lowReg rm)).toNat % 256) (flagC s)).value (shiftC .lsl (s.reg (lowReg rd)) ((s.reg (lowReg rm)).toNat % 256) (flagC s)).carry (s.setReg (lowReg rd) (shiftC .lsl (s.reg (lowReg rd)) ((s.reg (lowReg rm)).toNat % 256) (flagC s)).value))) ∧
  (∀ (rm rd : LowReg), exec (.cLsr rm rd) s =
      .next (logicFlagged true (shiftC .lsr (s.reg (lowReg rd)) ((s.reg (lowReg rm)).toNat % 256) (flagC s)).value (shiftC .lsr (s.reg (lowReg rd)) ((s.reg (lowReg rm)).toNat % 256) (flagC s)).carry (s.setReg (lowReg rd) (shiftC .lsr (s.reg (lowReg rd)) ((s.reg (lowReg rm)).toNat % 256) (flagC s)).value))) ∧
  (∀ (rm rd : LowReg), exec (.cAsr rm rd) s =
      .next (logicFlagged true (shiftC .asr (s.reg (lowReg rd)) ((s.reg (lowReg rm)).toNat % 256) (flagC s)).value (shiftC .asr (s.reg (lowReg rd)) ((s.reg (lowReg rm)).toNat % 256) (flagC s)).carry (s.setReg (lowReg rd) (shiftC .asr (s.reg (lowReg rd)) ((s.reg (lowReg rm)).toNat % 256) (flagC s)).value))) ∧
  (∀ (rm rd : LowReg), exec (.cRor rm rd) s =
      .next (logicFlagged true (shiftC .ror (s.reg (lowReg rd)) ((s.reg (lowReg rm)).toNat % 256) (flagC s)).value (shiftC .ror (s.reg (lowReg rd)) ((s.reg (lowReg rm)).toNat % 256) (flagC s)).carry (s.setReg (lowReg rd) (shiftC .ror (s.reg (lowReg rd)) ((s.reg (lowReg rm)).toNat % 256) (flagC s)).value)))

/-- Compact ADD, SUB (register, 3-bit, 8-bit), ADC, SBC, NEG: results and four flags by unbounded arithmetic
(45_compact_alu.md R284, 45_compact_alu.md R285, 45_compact_alu.md R286, 45_compact_alu.md R287, 45_compact_alu.md
R290, 45_compact_alu.md R291, 45_compact_alu.md R306, 45_compact_alu.md R307, 45_compact_alu.md R310). -/
def Obligations.CompactAddSubtract : Prop :=
  ∀ s : State,
  (∀ rm rn rd : LowReg, exec (.cAddReg rm rn rd) s =
      .next (sumFlagged true (s.reg (lowReg rn)) (s.reg (lowReg rm)) false (s.setReg (lowReg rd) (sumOf (s.reg (lowReg rn)) (s.reg (lowReg rm)) false)))) ∧
  (∀ rm rn rd : LowReg, exec (.cSubReg rm rn rd) s =
      .next (differenceFlagged true (s.reg (lowReg rn)) (s.reg (lowReg rm)) true (s.setReg (lowReg rd) (differenceOf (s.reg (lowReg rn)) (s.reg (lowReg rm)) true)))) ∧
  (∀ (imm3 : BitVec 3) (rn rd : LowReg), exec (.cAddImm3 imm3 rn rd) s =
      .next (sumFlagged true (s.reg (lowReg rn)) (imm3.setWidth 32) false (s.setReg (lowReg rd) (sumOf (s.reg (lowReg rn)) (imm3.setWidth 32) false)))) ∧
  (∀ (imm3 : BitVec 3) (rn rd : LowReg), exec (.cSubImm3 imm3 rn rd) s =
      .next (differenceFlagged true (s.reg (lowReg rn)) (imm3.setWidth 32) true (s.setReg (lowReg rd) (differenceOf (s.reg (lowReg rn)) (imm3.setWidth 32) true)))) ∧
  (∀ (rd : LowReg) (imm8 : BitVec 8), exec (.cAddImm8 rd imm8) s =
      .next (sumFlagged true (s.reg (lowReg rd)) (imm8.setWidth 32) false (s.setReg (lowReg rd) (sumOf (s.reg (lowReg rd)) (imm8.setWidth 32) false)))) ∧
  (∀ (rd : LowReg) (imm8 : BitVec 8), exec (.cSubImm8 rd imm8) s =
      .next (differenceFlagged true (s.reg (lowReg rd)) (imm8.setWidth 32) true (s.setReg (lowReg rd) (differenceOf (s.reg (lowReg rd)) (imm8.setWidth 32) true)))) ∧
  (∀ rm rd : LowReg, exec (.cAdc rm rd) s =
      .next (sumFlagged true (s.reg (lowReg rd)) (s.reg (lowReg rm)) (flagC s) (s.setReg (lowReg rd) (sumOf (s.reg (lowReg rd)) (s.reg (lowReg rm)) (flagC s))))) ∧
  (∀ rm rd : LowReg, exec (.cSbc rm rd) s =
      .next (differenceFlagged true (s.reg (lowReg rd)) (s.reg (lowReg rm)) (flagC s) (s.setReg (lowReg rd) (differenceOf (s.reg (lowReg rd)) (s.reg (lowReg rm)) (flagC s))))) ∧
  (∀ rm rd : LowReg, exec (.cNeg rm rd) s =
      .next (differenceFlagged true 0#32 (s.reg (lowReg rm)) true (s.setReg (lowReg rd) (differenceOf 0#32 (s.reg (lowReg rm)) true))))

/-- Compact CMP (three forms), CMN and TST write flags and no register (45_compact_alu.md R289, 45_compact_alu.md
R309, 45_compact_alu.md R311, 45_compact_alu.md R312, 45_compact_alu.md R322). -/
def Obligations.CompactCompares : Prop :=
  ∀ s : State,
  (∀ (rd : LowReg) (imm8 : BitVec 8), exec (.cCmpImm8 rd imm8) s =
      .next (differenceFlagged true (s.reg (lowReg rd)) (imm8.setWidth 32) true s)) ∧
  (∀ rm rd : LowReg, exec (.cCmp rm rd) s = .next (differenceFlagged true (s.reg (lowReg rd)) (s.reg (lowReg rm)) true s)) ∧
  (∀ rm rd : LowReg, exec (.cCmn rm rd) s = .next (sumFlagged true (s.reg (lowReg rd)) (s.reg (lowReg rm)) false s)) ∧
  (∀ rm rd : LowReg, exec (.cTst rm rd) s = .next (logicFlagged true (s.reg (lowReg rd) &&& s.reg (lowReg rm)) (flagC s) s)) ∧
  (∀ rm rd : Reg, exec (.cCmpHi rm rd) s =
      .next (differenceFlagged true (readCompact s rd) (readCompact s rm) true s))

/-- Compact MOV immediate, AND, EOR, ORR, BIC, MVN, MUL: result, N and Z, with C and V kept (45_compact_alu.md
R288, 45_compact_alu.md R301, 45_compact_alu.md R302, 45_compact_alu.md R313, 45_compact_alu.md R314,
45_compact_alu.md R315, 45_compact_alu.md R316). -/
def Obligations.CompactLogic : Prop :=
  ∀ s : State,
  (∀ (rd : LowReg) (imm8 : BitVec 8), exec (.cMovImm8 rd imm8) s =
      .next (logicFlagged true (imm8.setWidth 32) (flagC s) (s.setReg (lowReg rd) (imm8.setWidth 32)))) ∧
  (∀ rm rd : LowReg, exec (.cAnd rm rd) s =
      .next (logicFlagged true (s.reg (lowReg rd) &&& s.reg (lowReg rm)) (flagC s) (s.setReg (lowReg rd) (s.reg (lowReg rd) &&& s.reg (lowReg rm))))) ∧
  (∀ rm rd : LowReg, exec (.cEor rm rd) s =
      .next (logicFlagged true (s.reg (lowReg rd) ^^^ s.reg (lowReg rm)) (flagC s) (s.setReg (lowReg rd) (s.reg (lowReg rd) ^^^ s.reg (lowReg rm))))) ∧
  (∀ rm rd : LowReg, exec (.cOrr rm rd) s =
      .next (logicFlagged true (s.reg (lowReg rd) ||| s.reg (lowReg rm)) (flagC s) (s.setReg (lowReg rd) (s.reg (lowReg rd) ||| s.reg (lowReg rm))))) ∧
  (∀ rm rd : LowReg, exec (.cBic rm rd) s =
      .next (logicFlagged true (s.reg (lowReg rd) &&& ~~~(s.reg (lowReg rm))) (flagC s) (s.setReg (lowReg rd) (s.reg (lowReg rd) &&& ~~~(s.reg (lowReg rm)))))) ∧
  (∀ rm rd : LowReg, exec (.cMvn rm rd) s =
      .next (logicFlagged true (~~~(s.reg (lowReg rm))) (flagC s) (s.setReg (lowReg rd) (~~~(s.reg (lowReg rm)))))) ∧
  (∀ rm rd : LowReg, exec (.cMul rm rd) s =
      .next (logicFlagged true (BitVec.ofNat 32 ((s.reg (lowReg rd)).toNat * (s.reg (lowReg rm)).toNat)) (flagC s) (s.setReg (lowReg rd) (BitVec.ofNat 32 ((s.reg (lowReg rd)).toNat * (s.reg (lowReg rm)).toNat)))))

/-- Compact high-register ADD and MOV: no flags, and register 15 as destination is a branch within compact mode
(45_compact_alu.md R321, 45_compact_alu.md R323). -/
def Obligations.CompactHighRegisters : Prop :=
  ∀ (rm rd : Reg) (s : State),
    (rd ≠ pcReg → exec (.cAddHi rm rd) s = .next (s.setReg rd (s.reg rd + readCompact s rm))) ∧
    exec (.cAddHi rm pcReg) s = .next (s.setPc ((s.iaddr + 4#32 + readCompact s rm) &&& 0xFFFFFFFE#32)) ∧
    (rd ≠ pcReg → exec (.cMovHi rm rd) s = .next (s.setReg rd (readCompact s rm))) ∧
    exec (.cMovHi rm pcReg) s = .next (s.setPc (readCompact s rm &&& 0xFFFFFFFE#32))

/-- Compact BX and BLX: bit 0 of the target set stays compact at the even address, clear switches to wide there
(45_compact_alu.md R325, 45_compact_alu.md R326, 48_mode_switch.md R421, 48_mode_switch.md R426). The rules give
the switch the outcome ModeSwitch; that the next state is already in wide mode is the model's choice (DEDUCED, log
entry 10). -/
def Obligations.CompactExchange : Prop :=
  ∀ (rm : Reg) (s : State),
    (bit (readCompact s rm) 0 = true →
      exec (.cBx rm) s = .next (s.setPc (readCompact s rm &&& 0xFFFFFFFE#32))) ∧
    (bit (readCompact s rm) 0 = false →
      exec (.cBx rm) s = .next ((s.setPc (readCompact s rm)).setMode .wide)) ∧
    (rm ≠ pcReg → bit (s.reg rm) 0 = true →
      exec (.cBlxReg rm) s =
        .next ((s.setReg lrReg ((s.iaddr + 2#32) ||| 1#32)).setPc (s.reg rm &&& 0xFFFFFFFE#32))) ∧
    (rm ≠ pcReg → bit (s.reg rm) 0 = false →
      exec (.cBlxReg rm) s =
        .next (((s.setReg lrReg ((s.iaddr + 2#32) ||| 1#32)).setPc (s.reg rm)).setMode .wide)) ∧
    (∀ t, exec (.cBx rm) s = .next t → t.pc.toNat = (readCompact s rm).toNat / 2 * 2)

/-- The compact single loads: address, extension, the register written, or a fault with nothing written
(46_compact_load_store.md R340, 46_compact_load_store.md R345, 46_compact_load_store.md R346,
46_compact_load_store.md R347, 46_compact_load_store.md R348, 46_compact_load_store.md R349,
46_compact_load_store.md R352, 46_compact_load_store.md R354, 46_compact_load_store.md R356,
46_compact_load_store.md R358). -/
def Obligations.CompactLoads : Prop :=
  ∀ s : State,
  (∀ (rd : LowReg) (imm8 : BitVec 8),
      (accessFault s (BitVec.ofNat 32 ((s.iaddr + 4#32).toNat / 4 * 4 + 4 * imm8.toNat)) .word = none →
        exec (.cLdrLit rd imm8) s = .next (s.setReg (lowReg rd)
          (memGet s.mem ((BitVec.ofNat 32 ((s.iaddr + 4#32).toNat / 4 * 4 + 4 * imm8.toNat)).toNat + 3) ++ memGet s.mem ((BitVec.ofNat 32 ((s.iaddr + 4#32).toNat / 4 * 4 + 4 * imm8.toNat)).toNat + 2) ++ memGet s.mem ((BitVec.ofNat 32 ((s.iaddr + 4#32).toNat / 4 * 4 + 4 * imm8.toNat)).toNat + 1) ++ memGet s.mem (BitVec.ofNat 32 ((s.iaddr + 4#32).toNat / 4 * 4 + 4 * imm8.toNat)).toNat))) ∧
      (∀ k, accessFault s (BitVec.ofNat 32 ((s.iaddr + 4#32).toNat / 4 * 4 + 4 * imm8.toNat)) .word = some k → faultsWith k s (exec (.cLdrLit rd imm8) s))) ∧
  (∀ rm rn rd : LowReg,
      (accessFault s (s.reg (lowReg rn) + s.reg (lowReg rm)) .byte = none →
        exec (.cLdrsbReg rm rn rd) s = .next (s.setReg (lowReg rd)
          ((memGet s.mem (s.reg (lowReg rn) + s.reg (lowReg rm)).toNat).signExtend 32))) ∧
      (∀ k, accessFault s (s.reg (lowReg rn) + s.reg (lowReg rm)) .byte = some k → faultsWith k s (exec (.cLdrsbReg rm rn rd) s))) ∧
  (∀ rm rn rd : LowReg,
      (accessFault s (s.reg (lowReg rn) + s.reg (lowReg rm)) .word = none →
        exec (.cLdrReg rm rn rd) s = .next (s.setReg (lowReg rd)
          (memGet s.mem ((s.reg (lowReg rn) + s.reg (lowReg rm)).toNat + 3) ++ memGet s.mem ((s.reg (lowReg rn) + s.reg (lowReg rm)).toNat + 2) ++ memGet s.mem ((s.reg (lowReg rn) + s.reg (lowReg rm)).toNat + 1) ++ memGet s.mem (s.reg (lowReg rn) + s.reg (lowReg rm)).toNat))) ∧
      (∀ k, accessFault s (s.reg (lowReg rn) + s.reg (lowReg rm)) .word = some k → faultsWith k s (exec (.cLdrReg rm rn rd) s))) ∧
  (∀ rm rn rd : LowReg,
      (accessFault s (s.reg (lowReg rn) + s.reg (lowReg rm)) .half = none →
        exec (.cLdrhReg rm rn rd) s = .next (s.setReg (lowReg rd)
          ((memGet s.mem ((s.reg (lowReg rn) + s.reg (lowReg rm)).toNat + 1) ++ memGet s.mem (s.reg (lowReg rn) + s.reg (lowReg rm)).toNat).setWidth 32))) ∧
      (∀ k, accessFault s (s.reg (lowReg rn) + s.reg (lowReg rm)) .half = some k → faultsWith k s (exec (.cLdrhReg rm rn rd) s))) ∧
  (∀ rm rn rd : LowReg,
      (accessFault s (s.reg (lowReg rn) + s.reg (lowReg rm)) .byte = none →
        exec (.cLdrbReg rm rn rd) s = .next (s.setReg (lowReg rd)
          ((memGet s.mem (s.reg (lowReg rn) + s.reg (lowReg rm)).toNat).setWidth 32))) ∧
      (∀ k, accessFault s (s.reg (lowReg rn) + s.reg (lowReg rm)) .byte = some k → faultsWith k s (exec (.cLdrbReg rm rn rd) s))) ∧
  (∀ rm rn rd : LowReg,
      (accessFault s (s.reg (lowReg rn) + s.reg (lowReg rm)) .half = none →
        exec (.cLdrshReg rm rn rd) s = .next (s.setReg (lowReg rd)
          ((memGet s.mem ((s.reg (lowReg rn) + s.reg (lowReg rm)).toNat + 1) ++ memGet s.mem (s.reg (lowReg rn) + s.reg (lowReg rm)).toNat).signExtend 32))) ∧
      (∀ k, accessFault s (s.reg (lowReg rn) + s.reg (lowReg rm)) .half = some k → faultsWith k s (exec (.cLdrshReg rm rn rd) s))) ∧
  (∀ (imm5 : BitVec 5) (rn rd : LowReg),
      (accessFault s (s.reg (lowReg rn) + BitVec.ofNat 32 (4 * imm5.toNat)) .word = none →
        exec (.cLdrImm imm5 rn rd) s = .next (s.setReg (lowReg rd)
          (memGet s.mem ((s.reg (lowReg rn) + BitVec.ofNat 32 (4 * imm5.toNat)).toNat + 3) ++ memGet s.mem ((s.reg (lowReg rn) + BitVec.ofNat 32 (4 * imm5.toNat)).toNat + 2) ++ memGet s.mem ((s.reg (lowReg rn) + BitVec.ofNat 32 (4 * imm5.toNat)).toNat + 1) ++ memGet s.mem (s.reg (lowReg rn) + BitVec.ofNat 32 (4 * imm5.toNat)).toNat))) ∧
      (∀ k, accessFault s (s.reg (lowReg rn) + BitVec.ofNat 32 (4 * imm5.toNat)) .word = some k → faultsWith k s (exec (.cLdrImm imm5 rn rd) s))) ∧
  (∀ (imm5 : BitVec 5) (rn rd : LowReg),
      (accessFault s (s.reg (lowReg rn) + BitVec.ofNat 32 (1 * imm5.toNat)) .byte = none →
        exec (.cLdrbImm imm5 rn rd) s = .next (s.setReg (lowReg rd)
          ((memGet s.mem (s.reg (lowReg rn) + BitVec.ofNat 32 (1 * imm5.toNat)).toNat).setWidth 32))) ∧
      (∀ k, accessFault s (s.reg (lowReg rn) + BitVec.ofNat 32 (1 * imm5.toNat)) .byte = some k → faultsWith k s (exec (.cLdrbImm imm5 rn rd) s))) ∧
  (∀ (imm5 : BitVec 5) (rn rd : LowReg),
      (accessFault s (s.reg (lowReg rn) + BitVec.ofNat 32 (2 * imm5.toNat)) .half = none →
        exec (.cLdrhImm imm5 rn rd) s = .next (s.setReg (lowReg rd)
          ((memGet s.mem ((s.reg (lowReg rn) + BitVec.ofNat 32 (2 * imm5.toNat)).toNat + 1) ++ memGet s.mem (s.reg (lowReg rn) + BitVec.ofNat 32 (2 * imm5.toNat)).toNat).setWidth 32))) ∧
      (∀ k, accessFault s (s.reg (lowReg rn) + BitVec.ofNat 32 (2 * imm5.toNat)) .half = some k → faultsWith k s (exec (.cLdrhImm imm5 rn rd) s))) ∧
  (∀ (rd : LowReg) (imm8 : BitVec 8),
      (accessFault s (s.reg spReg + BitVec.ofNat 32 (4 * imm8.toNat)) .word = none →
        exec (.cLdrSp rd imm8) s = .next (s.setReg (lowReg rd)
          (memGet s.mem ((s.reg spReg + BitVec.ofNat 32 (4 * imm8.toNat)).toNat + 3) ++ memGet s.mem ((s.reg spReg + BitVec.ofNat 32 (4 * imm8.toNat)).toNat + 2) ++ memGet s.mem ((s.reg spReg + BitVec.ofNat 32 (4 * imm8.toNat)).toNat + 1) ++ memGet s.mem (s.reg spReg + BitVec.ofNat 32 (4 * imm8.toNat)).toNat))) ∧
      (∀ k, accessFault s (s.reg spReg + BitVec.ofNat 32 (4 * imm8.toNat)) .word = some k → faultsWith k s (exec (.cLdrSp rd imm8) s)))

/-- The compact single stores: address and stored bytes, or a fault with nothing written (46_compact_load_store.md
R342, 46_compact_load_store.md R343, 46_compact_load_store.md R344, 46_compact_load_store.md R351,
46_compact_load_store.md R353, 46_compact_load_store.md R355, 46_compact_load_store.md R357). -/
def Obligations.CompactStores : Prop :=
  ∀ s : State,
  (∀ rm rn rd : LowReg,
      (accessFault s (s.reg (lowReg rn) + s.reg (lowReg rm)) .word = none →
        exec (.cStrReg rm rn rd) s =
          .next (s.setMem (memStore s.mem (s.reg (lowReg rn) + s.reg (lowReg rm)).toNat (s.reg (lowReg rd)) .word))) ∧
      (∀ k, accessFault s (s.reg (lowReg rn) + s.reg (lowReg rm)) .word = some k → faultsWith k s (exec (.cStrReg rm rn rd) s))) ∧
  (∀ rm rn rd : LowReg,
      (accessFault s (s.reg (lowReg rn) + s.reg (lowReg rm)) .half = none →
        exec (.cStrhReg rm rn rd) s =
          .next (s.setMem (memStore s.mem (s.reg (lowReg rn) + s.reg (lowReg rm)).toNat (s.reg (lowReg rd)) .half))) ∧
      (∀ k, accessFault s (s.reg (lowReg rn) + s.reg (lowReg rm)) .half = some k → faultsWith k s (exec (.cStrhReg rm rn rd) s))) ∧
  (∀ rm rn rd : LowReg,
      (accessFault s (s.reg (lowReg rn) + s.reg (lowReg rm)) .byte = none →
        exec (.cStrbReg rm rn rd) s =
          .next (s.setMem (memStore s.mem (s.reg (lowReg rn) + s.reg (lowReg rm)).toNat (s.reg (lowReg rd)) .byte))) ∧
      (∀ k, accessFault s (s.reg (lowReg rn) + s.reg (lowReg rm)) .byte = some k → faultsWith k s (exec (.cStrbReg rm rn rd) s))) ∧
  (∀ (imm5 : BitVec 5) (rn rd : LowReg),
      (accessFault s (s.reg (lowReg rn) + BitVec.ofNat 32 (4 * imm5.toNat)) .word = none →
        exec (.cStrImm imm5 rn rd) s =
          .next (s.setMem (memStore s.mem (s.reg (lowReg rn) + BitVec.ofNat 32 (4 * imm5.toNat)).toNat (s.reg (lowReg rd)) .word))) ∧
      (∀ k, accessFault s (s.reg (lowReg rn) + BitVec.ofNat 32 (4 * imm5.toNat)) .word = some k → faultsWith k s (exec (.cStrImm imm5 rn rd) s))) ∧
  (∀ (imm5 : BitVec 5) (rn rd : LowReg),
      (accessFault s (s.reg (lowReg rn) + BitVec.ofNat 32 (2 * imm5.toNat)) .half = none →
        exec (.cStrhImm imm5 rn rd) s =
          .next (s.setMem (memStore s.mem (s.reg (lowReg rn) + BitVec.ofNat 32 (2 * imm5.toNat)).toNat (s.reg (lowReg rd)) .half))) ∧
      (∀ k, accessFault s (s.reg (lowReg rn) + BitVec.ofNat 32 (2 * imm5.toNat)) .half = some k → faultsWith k s (exec (.cStrhImm imm5 rn rd) s))) ∧
  (∀ (imm5 : BitVec 5) (rn rd : LowReg),
      (accessFault s (s.reg (lowReg rn) + BitVec.ofNat 32 (1 * imm5.toNat)) .byte = none →
        exec (.cStrbImm imm5 rn rd) s =
          .next (s.setMem (memStore s.mem (s.reg (lowReg rn) + BitVec.ofNat 32 (1 * imm5.toNat)).toNat (s.reg (lowReg rd)) .byte))) ∧
      (∀ k, accessFault s (s.reg (lowReg rn) + BitVec.ofNat 32 (1 * imm5.toNat)) .byte = some k → faultsWith k s (exec (.cStrbImm imm5 rn rd) s))) ∧
  (∀ (rd : LowReg) (imm8 : BitVec 8),
      (accessFault s (s.reg spReg + BitVec.ofNat 32 (4 * imm8.toNat)) .word = none →
        exec (.cStrSp rd imm8) s =
          .next (s.setMem (memStore s.mem (s.reg spReg + BitVec.ofNat 32 (4 * imm8.toNat)).toNat (s.reg (lowReg rd)) .word))) ∧
      (∀ k, accessFault s (s.reg spReg + BitVec.ofNat 32 (4 * imm8.toNat)) .word = some k → faultsWith k s (exec (.cStrSp rd imm8) s)))

/-- Compact ADD of PC or SP to a register, and ADD and SUB of SP: scaled by 4, modulo 2^32, no flags
(46_compact_load_store.md R359, 46_compact_load_store.md R360, 47_compact_misc_branch.md R380,
47_compact_misc_branch.md R381). -/
def Obligations.CompactAddresses : Prop :=
  ∀ s : State,
    (∀ (rd : LowReg) (imm8 : BitVec 8), exec (.cAddPc rd imm8) s =
      .next (s.setReg (lowReg rd) (BitVec.ofNat 32 ((s.iaddr + 4#32).toNat / 4 * 4 + 4 * imm8.toNat)))) ∧
    (∀ (rd : LowReg) (imm8 : BitVec 8), exec (.cAddSp rd imm8) s =
      .next (s.setReg (lowReg rd) (BitVec.ofNat 32 ((s.reg spReg).toNat + 4 * imm8.toNat)))) ∧
    (∀ imm7 : BitVec 7, exec (.cAddSpImm imm7) s =
      .next (s.setReg spReg (BitVec.ofNat 32 ((s.reg spReg).toNat + 4 * imm7.toNat)))) ∧
    (∀ imm7 : BitVec 7, exec (.cSubSpImm imm7) s =
      .next (s.setReg spReg (BitVec.ofInt 32 ((s.reg spReg).toNat - 4 * (imm7.toNat : Int)))))

/-- Compact SXTH, SXTB, UXTH, UXTB, REV, REV16, REVSH in numbers and bytes (47_compact_misc_branch.md R382,
47_compact_misc_branch.md R383, 47_compact_misc_branch.md R384, 47_compact_misc_branch.md R385,
47_compact_misc_branch.md R386, 47_compact_misc_branch.md R387, 47_compact_misc_branch.md R388). -/
def Obligations.CompactExtendReverse : Prop :=
  ∀ (rm rd : LowReg) (s : State),
    (∃ v, exec (.cSxth rm rd) s = .next (s.setReg (lowReg rd) v) ∧ v.toInt = ((s.reg (lowReg rm)).setWidth 16).toInt) ∧
    (∃ v, exec (.cSxtb rm rd) s = .next (s.setReg (lowReg rd) v) ∧ v.toInt = ((s.reg (lowReg rm)).setWidth 8).toInt) ∧
    (∃ v, exec (.cUxth rm rd) s = .next (s.setReg (lowReg rd) v) ∧ v.toNat = (s.reg (lowReg rm)).toNat % 2 ^ 16) ∧
    (∃ v, exec (.cUxtb rm rd) s = .next (s.setReg (lowReg rd) v) ∧ v.toNat = (s.reg (lowReg rm)).toNat % 2 ^ 8) ∧
    (∃ v, exec (.cRev rm rd) s = .next (s.setReg (lowReg rd) v) ∧
      ∀ j, j < 4 → byteOfWord v j = byteOfWord (s.reg (lowReg rm)) (3 - j)) ∧
    (∃ v, exec (.cRev16 rm rd) s = .next (s.setReg (lowReg rd) v) ∧
      ∀ j, j < 4 → byteOfWord v j = byteOfWord (s.reg (lowReg rm)) (if j % 2 = 0 then j + 1 else j - 1)) ∧
    (∃ v, exec (.cRevsh rm rd) s = .next (s.setReg (lowReg rd) v) ∧
      v.toInt = (byteOfWord (s.reg (lowReg rm)) 0 ++ byteOfWord (s.reg (lowReg rm)) 1).toInt)

/-- PUSH and STMIA store the listed registers at ascending words and then write the stack pointer or the base; and
which registers a list names, in which order, and where PUSH starts (46_compact_load_store.md R365,
46_compact_load_store.md R369). -/
def Obligations.MultipleStores : Prop :=
  ∀ s : State,
    (∀ (list : BitVec 8) (r : Reg), r ∈ listRegs list ↔ r.toNat < 8 ∧ list.getLsbD r.toNat = true) ∧
    (∀ list : BitVec 8, (listRegs list).Pairwise fun q r => q.toNat < r.toNat) ∧
    (∀ (lr : Bool) (list : BitVec 8),
      pushRegs lr list = listRegs list ++ (if lr then [14#4] else []) ∧
      pushStart s lr list = s.reg 13#4 - BitVec.ofNat 32 (4 * (pushRegs lr list).length)) ∧
    (∀ (lr : Bool) (list : BitVec 8),
      (∀ j, j < (pushRegs lr list).length → accessFault s (pushStart s lr list + BitVec.ofNat 32 (4 * j)) .word = none) →
      ∃ m, exec (.cPush lr list) s = .next ((s.setMem m).setReg spReg (pushStart s lr list)) ∧
        (∀ (j : Nat) (h : j < (pushRegs lr list).length),
          memValue m (pushStart s lr list + BitVec.ofNat 32 (4 * j)).toNat .word = s.reg (pushRegs lr list)[j]) ∧
        (∀ a, outside (wordsFrom (pushStart s lr list) (pushRegs lr list).length) a → memGet m a = memGet s.mem a)) ∧
    (∀ (rn : LowReg) (list : BitVec 8),
      (∀ j, j < (listRegs list).length → accessFault s (s.reg (lowReg rn) + BitVec.ofNat 32 (4 * j)) .word = none) →
      ∃ m, exec (.cStmia rn list) s =
          .next ((s.setMem m).setReg (lowReg rn) (s.reg (lowReg rn) + BitVec.ofNat 32 (4 * (listRegs list).length))) ∧
        (∀ (j : Nat) (h : j < (listRegs list).length),
          memValue m (s.reg (lowReg rn) + BitVec.ofNat 32 (4 * j)).toNat .word = s.reg (listRegs list)[j]) ∧
        (∀ a, outside (wordsFrom (s.reg (lowReg rn)) (listRegs list).length) a → memGet m a = memGet s.mem a))

/-- POP and LDMIA load the listed registers from ascending words and then write the stack pointer or the base
(46_compact_load_store.md R366, 46_compact_load_store.md R368). The rules give POP of an even word in a
bidirectional design the outcome ModeSwitch; that the next state is already in wide mode is the model's choice
(DEDUCED, log entry 10). -/
def Obligations.MultipleLoads : Prop :=
  ∀ (list : BitVec 8) (s : State),
    (∀ rn : LowReg,
      (∀ j, j < (listRegs list).length → accessFault s (s.reg (lowReg rn) + BitVec.ofNat 32 (4 * j)) .word = none) →
      ∃ t, exec (.cLdmia rn list) s = .next t ∧
        t.reg (lowReg rn) = s.reg (lowReg rn) + BitVec.ofNat 32 (4 * (listRegs list).length) ∧
        (∀ (j : Nat) (h : j < (listRegs list).length), (listRegs list)[j] ≠ lowReg rn →
          t.reg (listRegs list)[j] = memValue s.mem (s.reg (lowReg rn) + BitVec.ofNat 32 (4 * j)).toNat .word) ∧
        (∀ q : Reg, q ∉ listRegs list → q ≠ lowReg rn → t.reg q = s.reg q) ∧
        t.status = s.status ∧ t.mem = s.mem ∧ t.mode = s.mode) ∧
    ((∀ j, j < (listRegs list).length → accessFault s (s.reg spReg + BitVec.ofNat 32 (4 * j)) .word = none) →
      ∃ u : State,
        (∀ (j : Nat) (h : j < (listRegs list).length),
          u.reg (listRegs list)[j] = memValue s.mem (s.reg spReg + BitVec.ofNat 32 (4 * j)).toNat .word) ∧
        (∀ q : Reg, q ∉ listRegs list → u.reg q = s.reg q) ∧ u = { s with regs := u.regs } ∧
        exec (.cPop false list) s = .next (u.setReg spReg (s.reg spReg + BitVec.ofNat 32 (4 * (listRegs list).length))) ∧
        ∀ (last v : Word), last = s.reg spReg + BitVec.ofNat 32 (4 * (listRegs list).length) →
          accessFault s last .word = none → v = memValue s.mem last.toNat .word →
          (bit v 0 = true →
            exec (.cPop true list) s = .next ((u.setPc (v &&& 0xFFFFFFFE#32)).setReg spReg (last + 4#32))) ∧
          (bit v 0 = false → s.params.bidirSwitch = true →
            exec (.cPop true list) s = .next (((u.setPc v).setReg spReg (last + 4#32)).setMode .wide)) ∧
          (bit v 0 = false → s.params.bidirSwitch = false →
            faultsWith (.modeSwitchUnsupported s.iaddr s.instr v) u (exec (.cPop true list) s)))

/-- POP of the list just pushed restores every register of it and the stack pointer, whatever the registers hold
between (46_compact_load_store.md R365, 46_compact_load_store.md R366; the sentence of 46_compact_load_store.md
R367 that it restates is marked there as derived from those two). -/
def Obligations.PushPopRoundTrip : Prop :=
  ∀ (list : BitVec 8) (s t u : State), exec (.cPush false list) s = .next t →
    u.mem = t.mem → u.reg spReg = t.reg spReg → u.segs = t.segs → u.params = t.params →
    ∃ v, exec (.cPop false list) u = .next v ∧
      (∀ r ∈ listRegs list, v.reg r = s.reg r) ∧ v.reg spReg = s.reg spReg ∧
      (∀ q : Reg, q ∉ listRegs list → q ≠ spReg → v.reg q = u.reg q)

/-- PUSH, STMIA, LDMIA and POP, with or without the program counter, fault exactly at the first word whose access
fails its checks; they have then done the words before it and not written their base (60_exceptions.md R445,
46_compact_load_store.md R365, 46_compact_load_store.md R366, 46_compact_load_store.md R368,
46_compact_load_store.md R369). The one fault of POP that is no fault of an access is that of an even program-
counter word where the design has no switch to wide mode. -/
def Obligations.PartialTransfers : Prop :=
  ∀ s : State,
    (∀ (i : Instr) (base : Word) (regs : List Reg),
      (∃ lr list, i = .cPush lr list ∧ base = pushStart s lr list ∧ regs = pushRegs lr list) ∨
        (∃ rn list, i = .cStmia rn list ∧ base = s.reg (lowReg rn) ∧ regs = listRegs list) →
      ((∃ j, j < regs.length ∧ accessFault s (base + BitVec.ofNat 32 (4 * j)) .word ≠ none) →
        ∃ f, exec i s = .fault f) ∧
      ∀ f, exec i s = .fault f →
        ∃ (k : Nat) (hk : k < regs.length) (kind : FaultKind),
          (∀ j, j < k → accessFault s (base + BitVec.ofNat 32 (4 * j)) .word = none) ∧
          accessFault s (base + BitVec.ofNat 32 (4 * k)) .word = some kind ∧ faultKind f = some kind ∧
          (∀ (j : Nat) (h : j < k),
            memValue (faultFinal f).mem (base + BitVec.ofNat 32 (4 * j)).toNat .word = s.reg regs[j]) ∧
          (∀ a, outside (wordsFrom base k) a → memGet (faultFinal f).mem a = memGet s.mem a) ∧
          faultFinal f = (s.setMem (faultFinal f).mem).setRun (.faulted kind)) ∧
    (∀ (i : Instr) (base : Word) (list : BitVec 8) (pcWord : Bool),
      (i = .cPop pcWord list ∧ base = s.reg spReg) ∨
        (∃ rn, i = .cLdmia rn list ∧ base = s.reg (lowReg rn) ∧ pcWord = false) →
      ((∃ j, j < (listRegs list).length + pcWord.toNat ∧
          accessFault s (base + BitVec.ofNat 32 (4 * j)) .word ≠ none) →
        ∃ f, exec i s = .fault f) ∧
      ∀ f, exec i s = .fault f →
        (∃ (k : Nat) (hk : k ≤ (listRegs list).length) (kind : FaultKind),
          (k = (listRegs list).length → pcWord = true) ∧
          (∀ j, j < k → accessFault s (base + BitVec.ofNat 32 (4 * j)) .word = none) ∧
          accessFault s (base + BitVec.ofNat 32 (4 * k)) .word = some kind ∧ faultKind f = some kind ∧
          (∀ (j : Nat) (h : j < k),
            (faultFinal f).reg (listRegs list)[j] = memValue s.mem (base + BitVec.ofNat 32 (4 * j)).toNat .word) ∧
          (∀ q : Reg, q ∉ (listRegs list).take k → (faultFinal f).reg q = s.reg q) ∧
          faultFinal f = ({ s with regs := (faultFinal f).regs }).setRun (.faulted kind)) ∨
        (pcWord = true ∧ s.params.bidirSwitch = false ∧
          (∀ j, j < (listRegs list).length + 1 → accessFault s (base + BitVec.ofNat 32 (4 * j)) .word = none) ∧
          ∃ v, v = memValue s.mem (base + BitVec.ofNat 32 (4 * (listRegs list).length)).toNat .word ∧
            bit v 0 = false ∧ faultKind f = some (.modeSwitchUnsupported s.iaddr s.instr v)))

/-- Compact B and taken B<cond> go to iaddr + 4 plus twice the signed immediate (47_compact_misc_branch.md R395,
47_compact_misc_branch.md R397). -/
def Obligations.CompactBranches : Prop :=
  ∀ s : State,
    (∀ (c : Cond) (imm8 : BitVec 8), condPassed c s = true →
      exec (.cBcond c imm8) s = .next (s.setPc (BitVec.ofInt 32 (s.iaddr.toInt + 4 + 2 * imm8.toInt)))) ∧
    (∀ (c : Cond) (imm8 : BitVec 8), condPassed c s = false → exec (.cBcond c imm8) s = .next s) ∧
    (∀ imm11 : BitVec 11,
      exec (.cB imm11) s = .next (s.setPc (BitVec.ofInt 32 (s.iaddr.toInt + 4 + 2 * imm11.toInt))))

/-- The BL prefix and suffix: the two halves, and that together they call iaddr + 4 plus the combined offset
(47_compact_misc_branch.md R398, 47_compact_misc_branch.md R399). -/
def Obligations.BranchWithLinkPair : Prop :=
  ∀ (s t : State) (high low : BitVec 11),
    exec (.cBlPrefix high) s =
      .next (s.setReg lrReg (BitVec.ofInt 32 (s.iaddr.toInt + 4 + 4096 * high.toInt))) ∧
    exec (.cBlSuffix low) t =
      .next ((t.setReg lrReg ((t.iaddr + 2#32) ||| 1#32)).setPc
        (BitVec.ofNat 32 ((t.reg lrReg).toNat + 2 * low.toNat))) ∧
    (∀ u v : State, exec (.cBlPrefix high) s = .next u → t.reg lrReg = u.reg lrReg → exec (.cBlSuffix low) t = .next v →
      v.pc = BitVec.ofInt 32 (s.iaddr.toInt + 4 + 4096 * high.toInt + 2 * low.toNat))

/-- The two traps apply the shim's reply: its writes, its result in x0, the end of the run, or the fault of its
first failing access with the writes before it kept and x0 not written (44_wide_branch_block_swi.md R267,
47_compact_misc_branch.md R401, 60_exceptions.md R448, 60_exceptions.md R450, 60_exceptions.md R451). That the
shim's answer is the first listed reply, and past the list a free value of all the shim sees, is the model's
choice (DESIGN CHOICE, log entry 8), and so is that a failing access ends the step before x0 is written (DEDUCED,
log entry 9). -/
def Obligations.Traps : Prop :=
  ∀ s : State,
    (∀ (reply : ShimReply) (rest : List ShimReply), s.shim = reply :: rest → shimReply s = reply) ∧
    (s.shim = [] → shimReply s =
      Config.hostShim s.shimCalls s.regs s.status s.segs s.mem s.params.stackTop s.params.stackSize) ∧
    (shimAllowed s (shimReply s).accesses = true →
      exec .cSwiTrap s =
        .next ((((s.setShim s.shim.tail (s.shimCalls + 1)).setMem (shimMemory (shimReply s).accesses s.mem)).setReg 0#4
          (shimReply s).result).setRun (if (shimReply s).ends then .terminated else s.run))) ∧
    (∀ (before after : List ShimAccess) (x : ShimAccess) (k : FaultKind),
      (shimReply s).accesses = before ++ x :: after → shimAllowed s before = true →
      accessFault s (shimTarget x).1 (shimTarget x).2 = some k →
      faultsWith k ((s.setShim s.shim.tail (s.shimCalls + 1)).setMem (shimMemory before s.mem)) (exec .cSwiTrap s)) ∧
    (∀ c, condPassed c s = true → exec (.swiTrap c) s = exec .cSwiTrap s) ∧
    (∀ f, exec .cSwiTrap s = .fault f → ∃ a, faultKind f = some (.segmentFault a) ∨ faultKind f = some (.alignmentFault a)) ∧
    (∀ r, exec .cSwiTrap s ≠ .refused r)

/-- A launch with a well-formed table hands over the state of the reset rule; a malformed table is refused
(10_state.md R35, 20_memory.md R52, 20_memory.md R56, 70_reset_and_hazards.md R480, 70_reset_and_hazards.md R481,
70_reset_and_hazards.md R482). -/
def Obligations.LaunchState : Prop :=
  ∀ l : Launch,
    (tableWf l.segs l.params = false → launch l = .refused .malformedLaunch) ∧
    (tableWf l.segs l.params = true → ∃ t, launch l = .next t ∧
      t.run = .running ∧ t.mode = l.resetMode ∧ t.pc = l.entry ∧ t.reg spReg = l.params.stackTop ∧
      t.status = l.statusReset ∧ t.segs = l.segs ∧ t.params = l.params ∧
      (∀ r : Reg, r ≠ spReg → r ≠ pcReg → t.reg r = l.regReset[r.toNat]) ∧
      (∀ a, resolve t a = some .bss → memGet t.mem a = 0#8) ∧
      (∀ a, resolve t a = some .code ∨ resolve t a = some .rodata ∨ resolve t a = some .data →
        memGet t.mem a = memGet (loadCells l.image []) a) ∧
      (∀ a, resolve t a = some .heap ∨ resolve t a = some .stack →
        memGet t.mem a = memGet (loadCells l.memInit []) a))
end

