-- ==== Sys2Proof/Laws/State.lean ====
section
/-! SUPPORT. What each update of the state does to each field, and to a register read. -/

namespace Sys2Proof.Machine

/-! ## One lemma per field per update -/

@[simp] theorem State.setReg_regs (s : State) (r : Reg) (v : Word) : (s.setReg r v).regs = s.regs.set r.toNat v := rfl
@[simp] theorem State.setReg_status (s : State) (r : Reg) (v : Word) : (s.setReg r v).status = s.status := rfl
@[simp] theorem State.setReg_mode (s : State) (r : Reg) (v : Word) : (s.setReg r v).mode = s.mode := rfl
@[simp] theorem State.setReg_instr (s : State) (r : Reg) (v : Word) : (s.setReg r v).instr = s.instr := rfl
@[simp] theorem State.setReg_iaddr (s : State) (r : Reg) (v : Word) : (s.setReg r v).iaddr = s.iaddr := rfl
@[simp] theorem State.setReg_run (s : State) (r : Reg) (v : Word) : (s.setReg r v).run = s.run := rfl
@[simp] theorem State.setReg_segs (s : State) (r : Reg) (v : Word) : (s.setReg r v).segs = s.segs := rfl
@[simp] theorem State.setReg_params (s : State) (r : Reg) (v : Word) : (s.setReg r v).params = s.params := rfl
@[simp] theorem State.setReg_mem (s : State) (r : Reg) (v : Word) : (s.setReg r v).mem = s.mem := rfl
@[simp] theorem State.setReg_shim (s : State) (r : Reg) (v : Word) : (s.setReg r v).shim = s.shim := rfl
@[simp] theorem State.setReg_shimCalls (s : State) (r : Reg) (v : Word) : (s.setReg r v).shimCalls = s.shimCalls := rfl

@[simp] theorem State.setPc_regs (s : State) (v : Word) : (s.setPc v).regs = s.regs.set pcReg.toNat v := rfl
@[simp] theorem State.setPc_status (s : State) (v : Word) : (s.setPc v).status = s.status := rfl
@[simp] theorem State.setPc_mode (s : State) (v : Word) : (s.setPc v).mode = s.mode := rfl
@[simp] theorem State.setPc_instr (s : State) (v : Word) : (s.setPc v).instr = s.instr := rfl
@[simp] theorem State.setPc_iaddr (s : State) (v : Word) : (s.setPc v).iaddr = s.iaddr := rfl
@[simp] theorem State.setPc_run (s : State) (v : Word) : (s.setPc v).run = s.run := rfl
@[simp] theorem State.setPc_segs (s : State) (v : Word) : (s.setPc v).segs = s.segs := rfl
@[simp] theorem State.setPc_params (s : State) (v : Word) : (s.setPc v).params = s.params := rfl
@[simp] theorem State.setPc_mem (s : State) (v : Word) : (s.setPc v).mem = s.mem := rfl
@[simp] theorem State.setPc_shim (s : State) (v : Word) : (s.setPc v).shim = s.shim := rfl
@[simp] theorem State.setPc_shimCalls (s : State) (v : Word) : (s.setPc v).shimCalls = s.shimCalls := rfl

@[simp] theorem State.setStatus_regs (s : State) (v : Word) : (s.setStatus v).regs = s.regs := rfl
@[simp] theorem State.setStatus_status (s : State) (v : Word) : (s.setStatus v).status = v := rfl
@[simp] theorem State.setStatus_mode (s : State) (v : Word) : (s.setStatus v).mode = s.mode := rfl
@[simp] theorem State.setStatus_instr (s : State) (v : Word) : (s.setStatus v).instr = s.instr := rfl
@[simp] theorem State.setStatus_iaddr (s : State) (v : Word) : (s.setStatus v).iaddr = s.iaddr := rfl
@[simp] theorem State.setStatus_run (s : State) (v : Word) : (s.setStatus v).run = s.run := rfl
@[simp] theorem State.setStatus_segs (s : State) (v : Word) : (s.setStatus v).segs = s.segs := rfl
@[simp] theorem State.setStatus_params (s : State) (v : Word) : (s.setStatus v).params = s.params := rfl
@[simp] theorem State.setStatus_mem (s : State) (v : Word) : (s.setStatus v).mem = s.mem := rfl
@[simp] theorem State.setStatus_shim (s : State) (v : Word) : (s.setStatus v).shim = s.shim := rfl
@[simp] theorem State.setStatus_shimCalls (s : State) (v : Word) : (s.setStatus v).shimCalls = s.shimCalls := rfl

@[simp] theorem State.setMode_regs (s : State) (m : Mode) : (s.setMode m).regs = s.regs := rfl
@[simp] theorem State.setMode_status (s : State) (m : Mode) : (s.setMode m).status = s.status := rfl
@[simp] theorem State.setMode_mode (s : State) (m : Mode) : (s.setMode m).mode = m := rfl
@[simp] theorem State.setMode_instr (s : State) (m : Mode) : (s.setMode m).instr = s.instr := rfl
@[simp] theorem State.setMode_iaddr (s : State) (m : Mode) : (s.setMode m).iaddr = s.iaddr := rfl
@[simp] theorem State.setMode_run (s : State) (m : Mode) : (s.setMode m).run = s.run := rfl
@[simp] theorem State.setMode_segs (s : State) (m : Mode) : (s.setMode m).segs = s.segs := rfl
@[simp] theorem State.setMode_params (s : State) (m : Mode) : (s.setMode m).params = s.params := rfl
@[simp] theorem State.setMode_mem (s : State) (m : Mode) : (s.setMode m).mem = s.mem := rfl
@[simp] theorem State.setMode_shim (s : State) (m : Mode) : (s.setMode m).shim = s.shim := rfl
@[simp] theorem State.setMode_shimCalls (s : State) (m : Mode) : (s.setMode m).shimCalls = s.shimCalls := rfl

@[simp] theorem State.setInstr_regs (s : State) (a w : Word) : (s.setInstr a w).regs = s.regs := rfl
@[simp] theorem State.setInstr_status (s : State) (a w : Word) : (s.setInstr a w).status = s.status := rfl
@[simp] theorem State.setInstr_mode (s : State) (a w : Word) : (s.setInstr a w).mode = s.mode := rfl
@[simp] theorem State.setInstr_instr (s : State) (a w : Word) : (s.setInstr a w).instr = w := rfl
@[simp] theorem State.setInstr_iaddr (s : State) (a w : Word) : (s.setInstr a w).iaddr = a := rfl
@[simp] theorem State.setInstr_run (s : State) (a w : Word) : (s.setInstr a w).run = s.run := rfl
@[simp] theorem State.setInstr_segs (s : State) (a w : Word) : (s.setInstr a w).segs = s.segs := rfl
@[simp] theorem State.setInstr_params (s : State) (a w : Word) : (s.setInstr a w).params = s.params := rfl
@[simp] theorem State.setInstr_mem (s : State) (a w : Word) : (s.setInstr a w).mem = s.mem := rfl
@[simp] theorem State.setInstr_shim (s : State) (a w : Word) : (s.setInstr a w).shim = s.shim := rfl
@[simp] theorem State.setInstr_shimCalls (s : State) (a w : Word) : (s.setInstr a w).shimCalls = s.shimCalls := rfl

@[simp] theorem State.setRun_regs (s : State) (r : RunState) : (s.setRun r).regs = s.regs := rfl
@[simp] theorem State.setRun_status (s : State) (r : RunState) : (s.setRun r).status = s.status := rfl
@[simp] theorem State.setRun_mode (s : State) (r : RunState) : (s.setRun r).mode = s.mode := rfl
@[simp] theorem State.setRun_instr (s : State) (r : RunState) : (s.setRun r).instr = s.instr := rfl
@[simp] theorem State.setRun_iaddr (s : State) (r : RunState) : (s.setRun r).iaddr = s.iaddr := rfl
@[simp] theorem State.setRun_run (s : State) (r : RunState) : (s.setRun r).run = r := rfl
@[simp] theorem State.setRun_segs (s : State) (r : RunState) : (s.setRun r).segs = s.segs := rfl
@[simp] theorem State.setRun_params (s : State) (r : RunState) : (s.setRun r).params = s.params := rfl
@[simp] theorem State.setRun_mem (s : State) (r : RunState) : (s.setRun r).mem = s.mem := rfl
@[simp] theorem State.setRun_shim (s : State) (r : RunState) : (s.setRun r).shim = s.shim := rfl
@[simp] theorem State.setRun_shimCalls (s : State) (r : RunState) : (s.setRun r).shimCalls = s.shimCalls := rfl

@[simp] theorem State.setMem_regs (s : State) (m : Memory) : (s.setMem m).regs = s.regs := rfl
@[simp] theorem State.setMem_status (s : State) (m : Memory) : (s.setMem m).status = s.status := rfl
@[simp] theorem State.setMem_mode (s : State) (m : Memory) : (s.setMem m).mode = s.mode := rfl
@[simp] theorem State.setMem_instr (s : State) (m : Memory) : (s.setMem m).instr = s.instr := rfl
@[simp] theorem State.setMem_iaddr (s : State) (m : Memory) : (s.setMem m).iaddr = s.iaddr := rfl
@[simp] theorem State.setMem_run (s : State) (m : Memory) : (s.setMem m).run = s.run := rfl
@[simp] theorem State.setMem_segs (s : State) (m : Memory) : (s.setMem m).segs = s.segs := rfl
@[simp] theorem State.setMem_params (s : State) (m : Memory) : (s.setMem m).params = s.params := rfl
@[simp] theorem State.setMem_mem (s : State) (m : Memory) : (s.setMem m).mem = m := rfl
@[simp] theorem State.setMem_shim (s : State) (m : Memory) : (s.setMem m).shim = s.shim := rfl
@[simp] theorem State.setMem_shimCalls (s : State) (m : Memory) : (s.setMem m).shimCalls = s.shimCalls := rfl

@[simp] theorem State.setSegs_regs (s : State) (t : SegmentTable) : (s.setSegs t).regs = s.regs := rfl
@[simp] theorem State.setSegs_status (s : State) (t : SegmentTable) : (s.setSegs t).status = s.status := rfl
@[simp] theorem State.setSegs_mode (s : State) (t : SegmentTable) : (s.setSegs t).mode = s.mode := rfl
@[simp] theorem State.setSegs_instr (s : State) (t : SegmentTable) : (s.setSegs t).instr = s.instr := rfl
@[simp] theorem State.setSegs_iaddr (s : State) (t : SegmentTable) : (s.setSegs t).iaddr = s.iaddr := rfl
@[simp] theorem State.setSegs_run (s : State) (t : SegmentTable) : (s.setSegs t).run = s.run := rfl
@[simp] theorem State.setSegs_segs (s : State) (t : SegmentTable) : (s.setSegs t).segs = t := rfl
@[simp] theorem State.setSegs_params (s : State) (t : SegmentTable) : (s.setSegs t).params = s.params := rfl
@[simp] theorem State.setSegs_mem (s : State) (t : SegmentTable) : (s.setSegs t).mem = s.mem := rfl
@[simp] theorem State.setSegs_shim (s : State) (t : SegmentTable) : (s.setSegs t).shim = s.shim := rfl
@[simp] theorem State.setSegs_shimCalls (s : State) (t : SegmentTable) : (s.setSegs t).shimCalls = s.shimCalls := rfl

@[simp] theorem State.setShim_regs (s : State) (l : List ShimReply) (n : Nat) : (s.setShim l n).regs = s.regs := rfl
@[simp] theorem State.setShim_status (s : State) (l : List ShimReply) (n : Nat) : (s.setShim l n).status = s.status := rfl
@[simp] theorem State.setShim_mode (s : State) (l : List ShimReply) (n : Nat) : (s.setShim l n).mode = s.mode := rfl
@[simp] theorem State.setShim_instr (s : State) (l : List ShimReply) (n : Nat) : (s.setShim l n).instr = s.instr := rfl
@[simp] theorem State.setShim_iaddr (s : State) (l : List ShimReply) (n : Nat) : (s.setShim l n).iaddr = s.iaddr := rfl
@[simp] theorem State.setShim_run (s : State) (l : List ShimReply) (n : Nat) : (s.setShim l n).run = s.run := rfl
@[simp] theorem State.setShim_segs (s : State) (l : List ShimReply) (n : Nat) : (s.setShim l n).segs = s.segs := rfl
@[simp] theorem State.setShim_params (s : State) (l : List ShimReply) (n : Nat) : (s.setShim l n).params = s.params := rfl
@[simp] theorem State.setShim_mem (s : State) (l : List ShimReply) (n : Nat) : (s.setShim l n).mem = s.mem := rfl
@[simp] theorem State.setShim_shim (s : State) (l : List ShimReply) (n : Nat) : (s.setShim l n).shim = l := rfl
@[simp] theorem State.setShim_shimCalls (s : State) (l : List ShimReply) (n : Nat) : (s.setShim l n).shimCalls = n := rfl

/-! ## Register reads -/

@[simp] theorem State.reg_setReg (s : State) (r q : Reg) (v : Word) :
    (s.setReg r v).reg q = if q = r then v else s.reg q := by
  simp only [State.reg, State.setReg, Vector.getElem_set, BitVec.toNat_inj]
  by_cases h : r = q
  · simp [h]
  · simp [h, Ne.symm h]

theorem State.reg_setReg_self (s : State) (r : Reg) (v : Word) : (s.setReg r v).reg r = v := by simp

theorem State.reg_setReg_ne (s : State) {r q : Reg} (v : Word) (h : q ≠ r) : (s.setReg r v).reg q = s.reg q := by
  simp [h]

@[simp] theorem State.reg_setPc (s : State) (q : Reg) (v : Word) :
    (s.setPc v).reg q = if q = pcReg then v else s.reg q := by simp [State.setPc]

@[simp] theorem State.reg_setStatus (s : State) (q : Reg) (v : Word) : (s.setStatus v).reg q = s.reg q := rfl
@[simp] theorem State.reg_setMode (s : State) (q : Reg) (m : Mode) : (s.setMode m).reg q = s.reg q := rfl
@[simp] theorem State.reg_setInstr (s : State) (q : Reg) (a w : Word) : (s.setInstr a w).reg q = s.reg q := rfl
@[simp] theorem State.reg_setRun (s : State) (q : Reg) (r : RunState) : (s.setRun r).reg q = s.reg q := rfl
@[simp] theorem State.reg_setMem (s : State) (q : Reg) (m : Memory) : (s.setMem m).reg q = s.reg q := rfl
@[simp] theorem State.reg_setSegs (s : State) (q : Reg) (t : SegmentTable) : (s.setSegs t).reg q = s.reg q := rfl
@[simp] theorem State.reg_setShim (s : State) (q : Reg) (l : List ShimReply) (n : Nat) : (s.setShim l n).reg q = s.reg q := rfl

@[simp] theorem State.pc_setPc (s : State) (v : Word) : (s.setPc v).pc = v := by simp [State.pc]

@[simp] theorem State.pc_setReg (s : State) (r : Reg) (v : Word) :
    (s.setReg r v).pc = if pcReg = r then v else s.pc := by simp [State.pc]

@[simp] theorem State.pc_setStatus (s : State) (v : Word) : (s.setStatus v).pc = s.pc := rfl
@[simp] theorem State.pc_setMode (s : State) (m : Mode) : (s.setMode m).pc = s.pc := rfl
@[simp] theorem State.pc_setInstr (s : State) (a w : Word) : (s.setInstr a w).pc = s.pc := rfl
@[simp] theorem State.pc_setRun (s : State) (r : RunState) : (s.setRun r).pc = s.pc := rfl
@[simp] theorem State.pc_setMem (s : State) (m : Memory) : (s.setMem m).pc = s.pc := rfl
@[simp] theorem State.pc_setSegs (s : State) (t : SegmentTable) : (s.setSegs t).pc = s.pc := rfl
@[simp] theorem State.pc_setShim (s : State) (l : List ShimReply) (n : Nat) : (s.setShim l n).pc = s.pc := rfl

/-- Two states with equal fields are equal, the register file compared register by register. -/
theorem State.ext_regs {s t : State} (hr : ∀ q, s.reg q = t.reg q) (hs : s.status = t.status) (hm : s.mode = t.mode)
    (hi : s.instr = t.instr) (ha : s.iaddr = t.iaddr) (hn : s.run = t.run) (hg : s.segs = t.segs)
    (hp : s.params = t.params) (hmem : s.mem = t.mem) (hh : s.shim = t.shim) (hc : s.shimCalls = t.shimCalls) :
    s = t := by
  have hregs : s.regs = t.regs := by
    apply Vector.ext
    intro i h
    have := hr (BitVec.ofNat 4 i)
    simpa [State.reg, Nat.mod_eq_of_lt h] using this
  cases s
  cases t
  simp_all

/-- A register written with the value it holds. -/
theorem State.setReg_self (s : State) (r : Reg) : s.setReg r (s.reg r) = s := by
  apply State.ext_regs <;> simp

/-! ## The flags and the link between a status word and its bits -/

@[simp] theorem bit_statusWith_n (st : Word) (n z c v : Bool) : bit (statusWith st n z c v) 31 = n := by
  simp only [bit, statusWith, field, BitVec.getLsbD_append, BitVec.getLsbD_ofBool]; simp

@[simp] theorem bit_statusWith_z (st : Word) (n z c v : Bool) : bit (statusWith st n z c v) 30 = z := by
  simp only [bit, statusWith, field, BitVec.getLsbD_append, BitVec.getLsbD_ofBool]; simp

@[simp] theorem bit_statusWith_c (st : Word) (n z c v : Bool) : bit (statusWith st n z c v) 29 = c := by
  simp only [bit, statusWith, field, BitVec.getLsbD_append, BitVec.getLsbD_ofBool]; simp

@[simp] theorem bit_statusWith_v (st : Word) (n z c v : Bool) : bit (statusWith st n z c v) 28 = v := by
  simp only [bit, statusWith, field, BitVec.getLsbD_append, BitVec.getLsbD_ofBool]; simp

@[simp] theorem field_statusWith (st : Word) (n z c v : Bool) : field (statusWith st n z c v) 0 28 = field st 0 28 := by
  apply BitVec.eq_of_getLsbD_eq
  intro i h
  simp only [statusWith, field, BitVec.getLsbD_append, BitVec.getLsbD_extractLsb']; simp [h]

/-- A status word is its four flags and its low 28 bits. -/
theorem statusWith_self (st : Word) : statusWith st (bit st 31) (bit st 30) (bit st 29) (bit st 28) = st := by
  apply BitVec.eq_of_getLsbD_eq
  intro i h
  simp only [statusWith, bit, field, BitVec.getLsbD_append, BitVec.getLsbD_extractLsb', BitVec.getLsbD_ofBool]
  by_cases h28 : i < 28
  · simp [h28]
  · have : i = 28 ∨ i = 29 ∨ i = 30 ∨ i = 31 := by omega
    rcases this with rfl | rfl | rfl | rfl <;> simp

end Sys2Proof.Machine
end

