-- ==== Sys2Proof/Laws/Memory.lean ====
section
/-! SUPPORT. The laws of memory: read after write, the frame of a write, and the canonical form. -/

namespace Sys2Proof.Machine

/-! ## One byte -/

theorem memGet_memErase (m : Memory) (a b : Nat) :
    memGet (memErase m a) b = if b = a then unlistedByte else memGet m b := by
  induction m with
  | nil => simp [memErase, memGet]
  | cons cell rest ih =>
    obtain ⟨k, w⟩ := cell
    simp only [memErase, List.filter_cons] at ih ⊢
    by_cases hk : k = a
    · subst hk
      by_cases hb : b = k <;> simp_all [memGet]
    · by_cases hb : b = k
      · subst hb; simp [hk, memGet]
      · simp [hk, hb, memGet, ih]

theorem memGet_memInsert (m : Memory) (a b : Nat) (v : Byte) :
    memGet (memInsert m a v) b = if b = a then v else memGet m b := by
  induction m with
  | nil => simp [memInsert, memGet]
  | cons cell rest ih =>
    obtain ⟨k, w⟩ := cell
    simp only [memInsert]
    split
    · simp [memGet]
    · split
      · rename_i h; subst h; by_cases hb : b = a <;> simp [memGet, hb]
      · by_cases hb : b = k
        · subst hb; rename_i h; simp [memGet, Ne.symm h]
        · simp [memGet, hb, ih]

/-- A byte written is read back, and every other byte reads as before. -/
theorem memGet_memPut (m : Memory) (a b : Nat) (v : Byte) :
    memGet (memPut m a v) b = if b = a then v else memGet m b := by
  unfold memPut
  split
  · rename_i h; rw [memGet_memErase, h]
  · exact memGet_memInsert m a b v

/-- No cell of a list lies at or below an address. -/
theorem memGet_of_all_gt {m : Memory} {a : Nat} (h : m.all (fun cell => decide (a < cell.1)) = true) :
    memGet m a = unlistedByte := by
  induction m with
  | nil => rfl
  | cons cell rest ih =>
    simp only [List.all_cons, Bool.and_eq_true, decide_eq_true_eq] at h
    simp [memGet, Nat.ne_of_lt h.1, ih h.2]

/-! ## The canonical form -/

theorem memWf_cons {a : Nat} {v : Byte} {m : Memory} :
    memWf ((a, v) :: m) = true ↔
      a < 2 ^ 32 ∧ v ≠ unlistedByte ∧ m.all (fun cell => decide (a < cell.1)) = true ∧ memWf m = true := by
  simp [memWf, and_assoc]

theorem memWf_nil : memWf [] = true := rfl

theorem all_gt_memErase {m : Memory} {a k : Nat} (h : m.all (fun cell => decide (k < cell.1)) = true) :
    (memErase m a).all (fun cell => decide (k < cell.1)) = true := by
  simp only [memErase, List.all_eq_true, List.mem_filter] at h ⊢
  exact fun x hx => h x hx.1

theorem memWf_memErase {m : Memory} {a : Nat} (h : memWf m = true) : memWf (memErase m a) = true := by
  induction m with
  | nil => rfl
  | cons cell rest ih =>
    obtain ⟨k, w⟩ := cell
    rw [memWf_cons] at h
    have hrest := ih h.2.2.2
    simp only [memErase, List.filter_cons] at hrest ⊢
    split
    · rw [memWf_cons]; exact ⟨h.1, h.2.1, all_gt_memErase h.2.2.1, hrest⟩
    · exact hrest

theorem all_gt_memInsert {m : Memory} {a k : Nat} {v : Byte} (hk : k < a)
    (h : m.all (fun cell => decide (k < cell.1)) = true) :
    (memInsert m a v).all (fun cell => decide (k < cell.1)) = true := by
  induction m with
  | nil => simp [memInsert, hk]
  | cons cell rest ih =>
    obtain ⟨b, w⟩ := cell
    simp only [List.all_cons, Bool.and_eq_true, decide_eq_true_eq] at h
    simp only [memInsert]
    split
    · simp [hk, h.1, h.2]
    · split
      · simp [hk, h.2]
      · simp [h.1, ih h.2]

theorem memWf_memInsert {m : Memory} {a : Nat} {v : Byte} (ha : a < 2 ^ 32) (hv : v ≠ unlistedByte)
    (h : memWf m = true) : memWf (memInsert m a v) = true := by
  induction m with
  | nil => exact memWf_cons.mpr ⟨ha, hv, rfl, rfl⟩
  | cons cell rest ih =>
    obtain ⟨b, w⟩ := cell
    have hw := memWf_cons.mp h
    simp only [memInsert]
    split
    · rename_i hab
      rw [memWf_cons]
      refine ⟨ha, hv, ?_, h⟩
      simp only [List.all_cons, hab, decide_true, Bool.true_and, List.all_eq_true, decide_eq_true_eq]
      intro x hx
      have := List.all_eq_true.mp hw.2.2.1 x hx
      simp only [decide_eq_true_eq] at this
      exact Nat.lt_trans hab this
    · split
      · rename_i hab; subst hab
        rw [memWf_cons]; exact ⟨ha, hv, hw.2.2.1, hw.2.2.2⟩
      · rw [memWf_cons]
        exact ⟨hw.1, hw.2.1, all_gt_memInsert (by omega) hw.2.2.1, ih hw.2.2.2⟩

/-- A write below 2^32 keeps the canonical form. -/
theorem memWf_memPut {m : Memory} {a : Nat} {v : Byte} (ha : a < 2 ^ 32) (h : memWf m = true) :
    memWf (memPut m a v) = true := by
  unfold memPut
  split
  · exact memWf_memErase h
  · rename_i hv; exact memWf_memInsert ha hv h

/-- Memories in canonical form that read alike are equal data. -/
theorem mem_ext {m n : Memory} (hm : memWf m = true) (hn : memWf n = true) (h : ∀ a, memGet m a = memGet n a) :
    m = n := by
  induction m generalizing n with
  | nil =>
    cases n with
    | nil => rfl
    | cons cell rest =>
      obtain ⟨b, w⟩ := cell
      have := h b
      exact absurd (by simpa [memGet] using this.symm) (memWf_cons.mp hn).2.1
  | cons cell rest ih =>
    obtain ⟨a, v⟩ := cell
    have hw := memWf_cons.mp hm
    cases n with
    | nil => exact absurd (by simpa [memGet] using h a) hw.2.1
    | cons cell' rest' =>
      obtain ⟨b, w⟩ := cell'
      have hw' := memWf_cons.mp hn
      have hab : a = b := by
        rcases Nat.lt_trichotomy a b with hlt | heq | hgt
        · have hgt' : rest'.all (fun cell => decide (a < cell.1)) = true := by
            simp only [List.all_eq_true, decide_eq_true_eq]
            intro x hx
            have := List.all_eq_true.mp hw'.2.2.1 x hx
            simp only [decide_eq_true_eq] at this
            omega
          have := h a
          simp only [memGet, if_true, if_neg (Nat.ne_of_lt hlt), memGet_of_all_gt hgt'] at this
          exact absurd this hw.2.1
        · exact heq
        · have hgt' : rest.all (fun cell => decide (b < cell.1)) = true := by
            simp only [List.all_eq_true, decide_eq_true_eq]
            intro x hx
            have := List.all_eq_true.mp hw.2.2.1 x hx
            simp only [decide_eq_true_eq] at this
            omega
          have := h b
          simp only [memGet, if_true, if_neg (Nat.ne_of_lt hgt), memGet_of_all_gt hgt'] at this
          exact absurd this.symm hw'.2.1
      subst hab
      have hv : v = w := by simpa [memGet] using h a
      subst hv
      rw [ih hw.2.2.2 hw'.2.2.2 ?_]
      intro k
      by_cases hk : k = a
      · subst hk; rw [memGet_of_all_gt hw.2.2.1, memGet_of_all_gt hw'.2.2.1]
      · simpa [memGet, hk] using h k

/-! ## Half-words and words -/

/-- The bytes of an access. -/
theorem memGet_memStore (m : Memory) (a b : Nat) (v : Word) (w : Width) :
    memGet (memStore m a v w) b =
      if a ≤ b ∧ b < a + w.bytes then byteOfWord v (b - a) else memGet m b := by
  cases w <;> simp only [memStore, memGet_memPut, Width.bytes]
  · by_cases h : b = a
    · subst h; simp
    · rw [if_neg h, if_neg (by omega)]
  · by_cases h1 : b = a + 1
    · subst h1; simp
    · by_cases h : b = a
      · subst h; simp
      · rw [if_neg h1, if_neg h, if_neg (by omega)]
  · by_cases h3 : b = a + 3
    · subst h3; simp
    · by_cases h2 : b = a + 2
      · subst h2; simp
      · by_cases h1 : b = a + 1
        · subst h1; simp
        · by_cases h : b = a
          · subst h; simp
          · rw [if_neg h3, if_neg h2, if_neg h1, if_neg h, if_neg (by omega)]

/-- Every byte outside a write reads as before. -/
theorem memGet_memStore_outside {m : Memory} {a b : Nat} {v : Word} {w : Width} (h : b < a ∨ a + w.bytes ≤ b) :
    memGet (memStore m a v w) b = memGet m b := by
  rw [memGet_memStore, if_neg (by omega)]

theorem memWf_memStore {m : Memory} {a : Nat} {v : Word} {w : Width} (ha : a + w.bytes ≤ 2 ^ 32)
    (h : memWf m = true) : memWf (memStore m a v w) = true := by
  cases w <;> simp only [memStore, Width.bytes] at ha ⊢
  · exact memWf_memPut (by omega) h
  · exact memWf_memPut (by omega) (memWf_memPut (by omega) h)
  · exact memWf_memPut (by omega) (memWf_memPut (by omega) (memWf_memPut (by omega) (memWf_memPut (by omega) h)))

/-- The value of an access depends on its bytes only. -/
theorem memValue_congr {m n : Memory} {a : Nat} {w : Width}
    (h : ∀ b, a ≤ b → b < a + w.bytes → memGet m b = memGet n b) : memValue m a w = memValue n a w := by
  cases w <;> simp only [memValue, Width.bytes] at h ⊢
  · rw [h a (by omega) (by omega)]
  · rw [h a (by omega) (by omega), h (a + 1) (by omega) (by omega)]
  · rw [h a (by omega) (by omega), h (a + 1) (by omega) (by omega), h (a + 2) (by omega) (by omega),
      h (a + 3) (by omega) (by omega)]

/-- A value kept to the width of an access. -/
theorem wordOfBytes_byteOfWord (v : Word) :
    wordOfBytes (byteOfWord v 0) (byteOfWord v 1) (byteOfWord v 2) (byteOfWord v 3) = v := by
  apply BitVec.eq_of_getLsbD_eq
  intro i h
  simp only [wordOfBytes, byteOfWord, BitVec.getLsbD_append, BitVec.getLsbD_extractLsb']
  by_cases h0 : i < 8
  · simp [h0]
  · by_cases h1 : i < 16
    · have e : 8 + (i - 8) = i := by omega
      have l : i - 8 < 8 := by omega
      simp [h0, l, e]
    · by_cases h2 : i < 24
      · have e : 16 + (i - 8 - 8) = i := by omega
        have l : i - 8 - 8 < 8 := by omega
        have n1 : ¬ i - 8 < 8 := by omega
        simp [h0, n1, l, e]
      · have e : 24 + (i - 8 - 8 - 8) = i := by omega
        have n1 : ¬ i - 8 < 8 := by omega
        have n2 : ¬ i - 8 - 8 < 8 := by omega
        have l : i - 8 - 8 - 8 < 8 := by omega
        simp [h0, n1, n2, l, e]

theorem halfOfBytes_byteOfWord (v : Word) : halfOfBytes (byteOfWord v 0) (byteOfWord v 1) = v.setWidth 16 := by
  apply BitVec.eq_of_getLsbD_eq
  intro i h
  simp only [halfOfBytes, byteOfWord, BitVec.getLsbD_append, BitVec.getLsbD_extractLsb', BitVec.getLsbD_setWidth]
  by_cases h0 : i < 8
  · simp [h0, h]
  · have e : 8 + (i - 8) = i := by omega
    have l : i - 8 < 8 := by omega
    simp [h0, l, e, h]

/-- The low `8n` bits of a word, zero-extended: what an access of n bytes stores of it. -/
theorem memValue_memStore (m : Memory) (a : Nat) (v : Word) (w : Width) :
    memValue (memStore m a v w) a w =
      match w with
      | .byte => (v.setWidth 8).setWidth 32
      | .half => (v.setWidth 16).setWidth 32
      | .word => v := by
  cases w
  · simp only [memValue, memGet_memStore, Width.bytes]
    simp [byteOfWord, BitVec.setWidth_eq_extractLsb']
  · simp only [memValue, memGet_memStore, Width.bytes]
    simp [← halfOfBytes_byteOfWord]
  · simp only [memValue, memGet_memStore, Width.bytes]
    simp [wordOfBytes_byteOfWord]

/-! ## Reset and the launch -/

theorem reset_mem_wf : memWf State.reset.mem = true := rfl

/-- The launch without an image and with the logged values is `State.reset`. -/
theorem launch_resetLaunch : launch resetLaunch = .next State.reset := rfl

theorem memWf_loadCells {cells : List Host.Cell} (h : ∀ cell ∈ cells, cell.1 < 2 ^ 32) :
    ∀ {m : Memory}, memWf m = true → memWf (loadCells cells m) = true := by
  induction cells with
  | nil => exact fun hm => hm
  | cons cell rest ih =>
    intro m hm
    obtain ⟨a, v⟩ := cell
    exact ih (fun c hc => h c (List.mem_cons_of_mem _ hc)) (memWf_memPut (h (a, v) List.mem_cons_self) hm)

end Sys2Proof.Machine
end

