-- ==== Sys2Proof/Laws/Ops.lean ====
section
/-! SUPPORT. For each shared operation, everything it can do. -/

namespace Sys2Proof.Machine

/-! ## Faults, refusals and conditions -/

@[simp] theorem raise_ne_next (k : FaultKind) (s t : State) : raise k s ≠ .next t := by cases k <;> simp [raise]

@[simp] theorem raise_ne_refused (k : FaultKind) (s : State) (r : Refusal) : raise k s ≠ .refused r := by
  cases k <;> simp [raise]

@[simp] theorem unimplemented_ne_next (s t : State) : unimplemented s ≠ .next t := raise_ne_next _ _ _

@[simp] theorem unimplemented_ne_refused (s : State) (r : Refusal) : unimplemented s ≠ .refused r :=
  raise_ne_refused _ _ _

@[simp] theorem undefined_ne_next (s t : State) : undefined s ≠ .next t := raise_ne_next _ _ _

@[simp] theorem undefined_ne_refused (s : State) (r : Refusal) : undefined s ≠ .refused r := raise_ne_refused _ _ _

@[simp] theorem refuse_ne_next (s t : State) : refuse s ≠ .next t := by simp [refuse]

theorem whenPassed_true {c : Cond} {s : State} {e : Out} (h : condPassed c s = true) : whenPassed c s e = e := by
  simp [whenPassed, h]

theorem whenPassed_false {c : Cond} {s : State} {e : Out} (h : condPassed c s = false) :
    whenPassed c s e = .next s := by simp [whenPassed, h]

theorem whenPassed_next {c : Cond} {s t : State} {e : Out} :
    whenPassed c s e = .next t ↔ (condPassed c s = true ∧ e = .next t) ∨ (condPassed c s = false ∧ t = s) := by
  cases h : condPassed c s <;> simp [whenPassed, h, eq_comm]

theorem whenPassed_refused {c : Cond} {s : State} {e : Out} {r : Refusal} :
    whenPassed c s e = .refused r ↔ condPassed c s = true ∧ e = .refused r := by
  cases h : condPassed c s <;> simp [whenPassed, h]

theorem unlessRefused_next {b : Bool} {s t : State} {e : Out} :
    unlessRefused b s e = .next t ↔ b = false ∧ e = .next t := by cases b <;> simp [unlessRefused]

theorem unlessRefused_false {b : Bool} {s : State} {e : Out} (h : b = false) : unlessRefused b s e = e := by
  simp [unlessRefused, h]

/-! ## Segments, accesses and fetch -/

theorem resolve_some {s : State} {a : Nat} {k : SegmentKind} (h : resolve s a = some k) :
    segOwns (segmentOf s.segs s.params k) a = true := by
  have := List.find?_some (p := fun k => segOwns (segmentOf s.segs s.params k) a) h
  exact this

theorem segOwns_iff {g : Segment} {a : Nat} : segOwns g a = true ↔ g.base ≤ a ∧ a < g.base + g.size := by
  rw [segOwns, Bool.and_eq_true, decide_eq_true_eq, decide_eq_true_eq]
  rfl

theorem resolve_code {s : State} {a : Nat} :
    resolve s a = some .code ↔ s.segs.code.base ≤ a ∧ a < s.segs.code.base + s.segs.code.size := by
  rw [← segOwns_iff]
  unfold resolve
  rw [List.find?_cons]
  cases h : segOwns (segmentOf s.segs s.params .code) a <;> simp only [segmentOf] at h <;> simp [h]

theorem aligned_iff {a : Word} {w : Width} : aligned a w = true ↔ a.toNat % w.bytes = 0 := by simp [aligned]

/-- An aligned access ends below 2^32. -/
theorem aligned_end {a : Word} {w : Width} (h : aligned a w = true) : a.toNat + w.bytes ≤ 2 ^ 32 := by
  rw [aligned_iff] at h
  have := a.isLt
  cases w <;> simp only [Width.bytes] at h ⊢ <;> omega

theorem accessFault_none {s : State} {a : Word} {w : Width} :
    accessFault s a w = none ↔
      aligned a w = true ∧ ∃ k, resolve s a.toNat = some k ∧ fits s k a w = true := by
  unfold accessFault
  split
  · rename_i h
    cases hr : resolve s a.toNat <;> simp [h]
  · rename_i h
    simp [h]

theorem memRead_ok {s : State} {a : Word} {w : Width} {v : Word} :
    memRead s a w = .ok v ↔ accessFault s a w = none ∧ v = memValue s.mem a.toNat w := by
  unfold memRead
  cases accessFault s a w <;> simp [eq_comm]

theorem memRead_error {s : State} {a : Word} {w : Width} {k : FaultKind} :
    memRead s a w = .error k ↔ accessFault s a w = some k := by
  unfold memRead
  cases accessFault s a w <;> simp

theorem memWrite_ok {s t : State} {a v : Word} {w : Width} :
    memWrite s a v w = .ok t ↔ accessFault s a w = none ∧ t = s.setMem (memStore s.mem a.toNat v w) := by
  unfold memWrite
  cases accessFault s a w <;> simp [eq_comm]

theorem memWrite_error {s : State} {a v : Word} {w : Width} {k : FaultKind} :
    memWrite s a v w = .error k ↔ accessFault s a w = some k := by
  unfold memWrite
  cases accessFault s a w <;> simp

/-- The checks of an access look at the segment table and the constants only. -/
theorem accessFault_congr {s t : State} (hs : s.segs = t.segs) (hp : s.params = t.params) (a : Word) (w : Width) :
    accessFault s a w = accessFault t a w := by
  unfold accessFault resolve fits
  rw [hs, hp]

@[simp] theorem accessFault_setMem (s : State) (m : Memory) (a : Word) (w : Width) :
    accessFault (s.setMem m) a w = accessFault s a w := accessFault_congr rfl rfl a w

@[simp] theorem accessFault_setReg (s : State) (r : Reg) (v a : Word) (w : Width) :
    accessFault (s.setReg r v) a w = accessFault s a w := accessFault_congr rfl rfl a w

@[simp] theorem accessFault_setShim (s : State) (l : List ShimReply) (n : Nat) (a : Word) (w : Width) :
    accessFault (s.setShim l n) a w = accessFault s a w := accessFault_congr rfl rfl a w

theorem memWf_memWrite {s t : State} {a v : Word} {w : Width} (h : memWrite s a v w = .ok t)
    (hw : memWf s.mem = true) : memWf t.mem = true := by
  obtain ⟨hn, rfl⟩ := memWrite_ok.mp h
  exact memWf_memStore (aligned_end (accessFault_none.mp hn).1) hw

theorem fetch_ok {s : State} {w : Word} :
    fetch s = .ok w ↔ aligned s.pc s.mode.instrWidth = true ∧ resolve s s.pc.toNat = some .code ∧
      fits s .code s.pc s.mode.instrWidth = true ∧ w = memValue s.mem s.pc.toNat s.mode.instrWidth := by
  unfold fetch
  cases ha : aligned s.pc s.mode.instrWidth
  · simp
  · cases hr : resolve s s.pc.toNat with
    | none => simp
    | some k =>
      cases k <;> simp
      cases hf : fits s .code s.pc s.mode.instrWidth <;> simp [eq_comm]

/-! ## Wide data-processing -/

theorem aluFlags_eq (r : AluOut) (s : State) : ∃ n z c v, aluFlags r s = setFlags s n z c v := by
  cases r <;> exact ⟨_, _, _, _, rfl⟩

theorem dpWrite_next {sf : Bool} {rd : Reg} {r : AluOut} {s t : State} :
    dpWrite sf rd r s = .next t ↔
      (rd = pcReg ∧ sf = false ∧ t = s.setPc (aluValue r &&& wordMask)) ∨
      (rd ≠ pcReg ∧ t = if sf then aluFlags r (s.setReg rd (aluValue r)) else s.setReg rd (aluValue r)) := by
  unfold dpWrite
  by_cases h : rd = pcReg
  · cases sf <;> simp [h, @eq_comm State]
  · simp [h, @eq_comm State]

theorem dpCompare_next {rd : Reg} {r : AluOut} {s t : State} :
    dpCompare rd r s = .next t ↔ rd ≠ pcReg ∧ t = aluFlags r s := by
  unfold dpCompare
  by_cases h : rd = pcReg <;> simp [h, @eq_comm State]

/-! ## Wide loads, stores and exchanges -/

theorem lsLoad_next {width : Width} {extend : Word → Word} {p u w : Bool} {rn rd : Reg} {offset : Word}
    {s t : State} :
    lsLoad width extend p u w rn rd offset s = .next t ↔
      accessFault s (lsAddr s p u rn offset) width = none ∧
      t = lsWriteRd (lsBase s p u w rn offset s) rd
        (extend (memValue s.mem (lsAddr s p u rn offset).toNat width)) := by
  unfold lsLoad memRead
  cases accessFault s (lsAddr s p u rn offset) width <;> simp [@eq_comm State]

theorem lsStore_next {width : Width} {p u w : Bool} {rn rd : Reg} {offset : Word} {s t : State} :
    lsStore width p u w rn rd offset s = .next t ↔
      accessFault s (lsAddr s p u rn offset) width = none ∧
      t = lsBase s p u w rn offset
        (s.setMem (memStore s.mem (lsAddr s p u rn offset).toNat (readWide s rd) width)) := by
  unfold lsStore memWrite
  cases accessFault s (lsAddr s p u rn offset) width <;> simp [@eq_comm State]

theorem exchangeFromWide_next {target : Word} {linked s t : State} :
    exchangeFromWide target linked s = .next t ↔
      (bit target 0 = false ∧ t = linked.setPc target) ∨
      (bit target 0 = true ∧ s.params.bidirSwitch = true ∧
        t = (linked.setPc (target &&& halfMask)).setMode .compact) := by
  unfold exchangeFromWide
  cases bit target 0 <;> cases s.params.bidirSwitch <;> simp [switchMode, @eq_comm State]

/-! ## Compact operations -/

theorem exchangeFromCompact_next {target : Word} {s t : State} :
    exchangeFromCompact target s = .next t ↔
      t = if bit target 0 then s.setPc (target &&& halfMask) else (s.setPc (target &&& halfMask)).setMode .wide := by
  unfold exchangeFromCompact
  simp only [switchMode, Host.Outcome.next.injEq]
  exact eq_comm

theorem highWrite_next {rd : Reg} {v : Word} {s t : State} :
    highWrite rd v s = .next t ↔ t = if rd = pcReg then s.setPc (v &&& halfMask) else s.setReg rd v := by
  unfold highWrite
  split <;> simp [@eq_comm State]

theorem compactLoad_next {width : Width} {extend : Word → Word} {rd : LowReg} {addr : Word} {s t : State} :
    compactLoad width extend rd addr s = .next t ↔
      accessFault s addr width = none ∧ t = s.setReg (lowReg rd) (extend (memValue s.mem addr.toNat width)) := by
  unfold compactLoad memRead
  cases accessFault s addr width <;> simp [@eq_comm State]

theorem compactStore_next {width : Width} {rd : LowReg} {addr : Word} {s t : State} :
    compactStore width rd addr s = .next t ↔
      accessFault s addr width = none ∧ t = s.setMem (memStore s.mem addr.toNat (readLow s rd) width) := by
  unfold compactStore memWrite
  cases accessFault s addr width <;> simp [@eq_comm State]

theorem popPc_next {addr : Word} {s t : State} :
    popPc addr s = .next t ↔
      accessFault s addr .word = none ∧
      ((bit (memValue s.mem addr.toNat .word) 0 = true ∧
          t = (s.setPc (memValue s.mem addr.toNat .word &&& halfMask)).setReg spReg (addr + 4#32)) ∨
        (bit (memValue s.mem addr.toNat .word) 0 = false ∧ s.params.bidirSwitch = true ∧
          t = ((s.setPc (memValue s.mem addr.toNat .word)).setReg spReg (addr + 4#32)).setMode .wide)) := by
  unfold popPc memRead
  cases accessFault s addr .word with
  | some k => simp
  | none =>
    cases h : bit (memValue s.mem addr.toNat .word) 0 <;> cases s.params.bidirSwitch <;>
      simp [h, switchMode, @eq_comm State]

/-! ## Transfers of several words -/

/-- Stores change memory only, and stop at the first fault. -/
theorem storeRegs_mem (regs : List Reg) :
    ∀ (addr : Word) (s : State), ∃ m, (∃ a, storeRegs regs addr s = .done a (s.setMem m)) ∨
      ∃ k, storeRegs regs addr s = .stopped k (s.setMem m) := by
  induction regs with
  | nil => exact fun addr s => ⟨s.mem, .inl ⟨addr, rfl⟩⟩
  | cons r rest ih =>
    intro addr s
    unfold storeRegs
    cases h : memWrite s addr (s.reg r) .word with
    | error k => exact ⟨s.mem, .inr ⟨k, rfl⟩⟩
    | ok s' =>
      obtain ⟨-, rfl⟩ := memWrite_ok.mp h
      obtain ⟨m, h'⟩ := ih (addr + 4#32) (s.setMem (memStore s.mem addr.toNat (s.reg r) .word))
      exact ⟨m, h'⟩

theorem storeRegs_done_addr (regs : List Reg) :
    ∀ {addr a : Word} {s t : State}, storeRegs regs addr s = .done a t →
      a = addr + BitVec.ofNat 32 (4 * regs.length) := by
  induction regs with
  | nil => intro addr a s t h; simp [storeRegs] at h; simp [h.1]
  | cons r rest ih =>
    intro addr a s t h
    unfold storeRegs at h
    split at h
    · cases h
    · rw [ih h]
      apply BitVec.eq_of_toNat_eq
      simp [BitVec.toNat_add, BitVec.toNat_ofNat, List.length_cons]
      omega

theorem storeRegs_wf (regs : List Reg) :
    ∀ {addr : Word} {s : State}, memWf s.mem = true →
      (∀ {a t}, storeRegs regs addr s = .done a t → memWf t.mem = true) ∧
      (∀ {k t}, storeRegs regs addr s = .stopped k t → memWf t.mem = true) := by
  induction regs with
  | nil =>
    intro addr s hw
    constructor
    · intro a t h; simp [storeRegs] at h; rw [← h.2]; exact hw
    · intro k t h; simp [storeRegs] at h
  | cons r rest ih =>
    intro addr s hw
    unfold storeRegs
    cases h : memWrite s addr (s.reg r) .word with
    | error k => exact ⟨fun h => by simp at h, fun h => by simp at h; rw [← h.2]; exact hw⟩
    | ok s' => exact ih (memWf_memWrite h hw)

/-- Loads change the listed registers only, and stop at the first fault. -/
theorem loadRegs_regs (regs : List Reg) :
    ∀ (addr : Word) (s : State), ∃ f : Vector Word 16, (∀ q, q ∉ regs → f[q.toNat] = s.reg q) ∧
      ((∃ a, loadRegs regs addr s = .done a { s with regs := f }) ∨
        ∃ k, loadRegs regs addr s = .stopped k { s with regs := f }) := by
  induction regs with
  | nil => exact fun addr s => ⟨s.regs, fun _ _ => rfl, .inl ⟨addr, rfl⟩⟩
  | cons r rest ih =>
    intro addr s
    unfold loadRegs
    cases h : memRead s addr .word with
    | error k => exact ⟨s.regs, fun _ _ => rfl, .inr ⟨k, rfl⟩⟩
    | ok v =>
      obtain ⟨f, hf, h'⟩ := ih (addr + 4#32) (s.setReg r v)
      refine ⟨f, fun q hq => ?_, h'⟩
      rw [hf q (fun hm => hq (List.mem_cons_of_mem _ hm)), State.reg_setReg_ne]
      exact fun he => hq (he ▸ List.mem_cons_self)

theorem loadRegs_done_addr (regs : List Reg) :
    ∀ {addr a : Word} {s t : State}, loadRegs regs addr s = .done a t →
      a = addr + BitVec.ofNat 32 (4 * regs.length) := by
  induction regs with
  | nil => intro addr a s t h; simp [loadRegs] at h; simp [h.1]
  | cons r rest ih =>
    intro addr a s t h
    unfold loadRegs at h
    split at h
    · cases h
    · rw [ih h]
      apply BitVec.eq_of_toNat_eq
      simp [BitVec.toNat_add, BitVec.toNat_ofNat, List.length_cons]
      omega

/-- A register list names low registers only. -/
theorem listRegs_lt {list : BitVec 8} {q : Reg} (h : q ∈ listRegs list) : q.toNat < 8 := by
  simp only [listRegs, List.mem_filter] at h
  have := h.1
  simp only [List.mem_cons, List.not_mem_nil, or_false] at this
  rcases this with rfl | rfl | rfl | rfl | rfl | rfl | rfl | rfl <;> decide

theorem spReg_not_mem_listRegs (list : BitVec 8) : spReg ∉ listRegs list :=
  fun h => absurd (listRegs_lt h) (by decide)

theorem pcReg_not_mem_listRegs (list : BitVec 8) : pcReg ∉ listRegs list :=
  fun h => absurd (listRegs_lt h) (by decide)

theorem lowReg_ne {r : LowReg} {q : Reg} (h : 8 ≤ q.toNat) : lowReg r ≠ q := by
  intro e
  have : (lowReg r).toNat < 8 := by
    simp only [lowReg, BitVec.toNat_setWidth]
    have := r.isLt
    omega
  rw [e] at this
  omega

/-! ## The trap -/

/-- The shim's accesses change memory only. -/
theorem shimAccesses_mem (l : List ShimAccess) :
    ∀ (s : State), ∃ m, (∃ a, shimAccesses l s = .done a (s.setMem m)) ∨
      ∃ k, shimAccesses l s = .stopped k (s.setMem m) := by
  induction l with
  | nil => exact fun s => ⟨s.mem, .inl ⟨0#32, rfl⟩⟩
  | cons x rest ih =>
    intro s
    cases x with
    | read addr w =>
      unfold shimAccesses
      cases h : memRead s addr w with
      | error k => exact ⟨s.mem, .inr ⟨k, rfl⟩⟩
      | ok v => exact ih s
    | write addr w v =>
      unfold shimAccesses
      cases h : memWrite s addr v w with
      | error k => exact ⟨s.mem, .inr ⟨k, rfl⟩⟩
      | ok s' =>
        obtain ⟨-, rfl⟩ := memWrite_ok.mp h
        obtain ⟨m, h'⟩ := ih (s.setMem (memStore s.mem addr.toNat v w))
        exact ⟨m, h'⟩

theorem shimAccesses_wf (l : List ShimAccess) :
    ∀ {s : State}, memWf s.mem = true →
      (∀ {a t}, shimAccesses l s = .done a t → memWf t.mem = true) ∧
      (∀ {k t}, shimAccesses l s = .stopped k t → memWf t.mem = true) := by
  induction l with
  | nil =>
    intro s hw
    constructor
    · intro a t h; simp [shimAccesses] at h; rw [← h.2]; exact hw
    · intro k t h; simp [shimAccesses] at h
  | cons x rest ih =>
    intro s hw
    cases x with
    | read addr w =>
      unfold shimAccesses
      cases h : memRead s addr w with
      | error k => exact ⟨fun h => by simp at h, fun h => by simp at h; rw [← h.2]; exact hw⟩
      | ok v => exact ih hw
    | write addr w v =>
      unfold shimAccesses
      cases h : memWrite s addr v w with
      | error k => exact ⟨fun h => by simp at h, fun h => by simp at h; rw [← h.2]; exact hw⟩
      | ok s' => exact ih (memWf_memWrite h hw)

/-- A trap that ends in a next state has changed `x[0]`, memory, the run state and the model's own shim fields. -/
theorem trap_next {s t : State} (h : trap s = .next t) :
    ∃ m v r, t = (((countTrap s).setMem m).setReg 0#4 v).setRun r ∧ (r = s.run ∨ r = .terminated) ∧
      (memWf s.mem = true → memWf m = true) := by
  unfold trap applyReply at h
  obtain ⟨m, ⟨a, e⟩ | ⟨k, e⟩⟩ := shimAccesses_mem (shimReply s).accesses (countTrap s)
  · simp only [e] at h
    have hw : memWf s.mem = true → memWf m = true := fun hw => (shimAccesses_wf _ (s := countTrap s) hw).1 e
    split at h
    · simp only [Host.Outcome.next.injEq] at h
      exact ⟨m, _, _, h.symm, .inr rfl, hw⟩
    · simp only [Host.Outcome.next.injEq] at h
      exact ⟨m, (shimReply s).result, s.run, h.symm, .inl rfl, hw⟩
  · simp [e] at h

/-! ## One step -/

/-- What a step that answers a next state has done: it fetched a word and executed it, or passed over an undecodable
word whose condition failed. -/
theorem step_next {s t : State} (h : step s = .next t) :
    s.run = .running ∧ ∃ w, fetch s = .ok w ∧
      ((∃ i, decode (codeOfFetched s.mode w) = .ok i ∧ exec i (advance s w) = .next t) ∨
        (∃ e, decode (codeOfFetched s.mode w) = .error e ∧ t = advance s w)) := by
  unfold step at h
  split at h
  · rename_i hr
    refine ⟨hr, ?_⟩
    split at h
    · simp at h
    · rename_i w hf
      refine ⟨w, hf, ?_⟩
      unfold execFetched at h
      split at h
      · rename_i i hd; exact .inl ⟨i, hd, h⟩
      · rename_i e hd
        refine .inr ⟨e, hd, ?_⟩
        unfold execUndecoded at h
        split at h
        · rw [whenPassed_next] at h
          rcases h with ⟨-, h⟩ | ⟨-, h⟩
          · simp at h
          · exact h
        · simp at h
  · cases h

end Sys2Proof.Machine
end

