-- ==== Sys2Proof/Laws/Transfers.lean ====
section
/-! SUPPORT. What the transfers of several words and the accesses of the Syscall Shim can do, said once: how far they
come, with which fault they stop, and the state they leave (60_exceptions.md R445, R451). -/

namespace Sys2Proof.Machine

/-! ## Faults -/

/-- `raise` writes nothing but the run state. -/
theorem raise_faultsWith (k : FaultKind) (s : State) : faultsWith k s (raise k s) := by
  cases k <;> exact ⟨_, rfl, rfl, rfl⟩

theorem raise_eq_fault {k : FaultKind} {s : State} {f : Fault} (h : raise k s = .fault f) :
    faultKind f = some k ∧ faultFinal f = s.setRun (.faulted k) := by
  obtain ⟨g, hg, hk, hs⟩ := raise_faultsWith k s
  rw [h] at hg
  cases hg
  exact ⟨hk, hs⟩

/-! ## Addresses of consecutive words -/

theorem nextWord_add (a : Word) (j : Nat) :
    a + 4#32 + BitVec.ofNat 32 (4 * j) = a + BitVec.ofNat 32 (4 * (j + 1)) := by
  apply BitVec.eq_of_toNat_eq
  simp
  omega

/-- The first word of a transfer shares no byte with the later ones, even where the addresses wrap. -/
theorem outside_laterWords {a : Word} (ha : a.toNat % 4 = 0) {b : Nat} (h : a.toNat ≤ b) (h' : b < a.toNat + 4)
    (n i : Nat) (hn : i + n < 2 ^ 20) : outside (wordsFrom (a + BitVec.ofNat 32 (4 * (i + 1))) n) b := by
  induction n generalizing i with
  | zero => intro x hx; simp [wordsFrom] at hx
  | succ n ih =>
    intro x hx
    simp only [wordsFrom, List.mem_cons] at hx
    rcases hx with rfl | hx
    · simp [Width.bytes]
      omega
    · refine ih (i + 1) (by omega) x ?_
      have e : a + BitVec.ofNat 32 (4 * (i + 1)) + 4#32 = a + BitVec.ofNat 32 (4 * (i + 1 + 1)) := by
        apply BitVec.eq_of_toNat_eq
        simp
        omega
      rwa [e] at hx

theorem accessFault_word_aligned {s : State} {a : Word} (h : accessFault s a .word = none) : a.toNat % 4 = 0 := by
  rw [accessFault_none] at h
  simpa [aligned, Width.bytes] using h.1

/-! ## Loading and storing registers -/

theorem listRegs_nodup (list : BitVec 8) : (listRegs list).Nodup := List.Nodup.filter _ (by decide)

/-- `loadRegs` either loads every register from its word, or stops at the first word whose access fails with the
registers before it loaded; nothing but registers changes. -/
theorem loadRegs_spec (regs : List Reg) : regs.Nodup → ∀ (a : Word) (s : State),
    (∃ u, loadRegs regs a s = .done (a + BitVec.ofNat 32 (4 * regs.length)) u ∧
      (∀ j, j < regs.length → accessFault s (a + BitVec.ofNat 32 (4 * j)) .word = none) ∧
      (∀ (j : Nat) (h : j < regs.length),
        u.reg regs[j] = memValue s.mem (a + BitVec.ofNat 32 (4 * j)).toNat .word) ∧
      (∀ q, q ∉ regs → u.reg q = s.reg q) ∧ u = { s with regs := u.regs }) ∨
    (∃ k kind u, ∃ hk : k < regs.length, loadRegs regs a s = .stopped kind u ∧
      (∀ j, j < k → accessFault s (a + BitVec.ofNat 32 (4 * j)) .word = none) ∧
      accessFault s (a + BitVec.ofNat 32 (4 * k)) .word = some kind ∧
      (∀ (j : Nat) (h : j < k), u.reg regs[j] = memValue s.mem (a + BitVec.ofNat 32 (4 * j)).toNat .word) ∧
      (∀ q, q ∉ regs.take k → u.reg q = s.reg q) ∧ u = { s with regs := u.regs }) := by
  induction regs with
  | nil => intro _ a s; exact .inl ⟨s, by simp [loadRegs], by simp, by simp, by simp, rfl⟩
  | cons r rest ih =>
    intro hn a s
    rw [List.nodup_cons] at hn
    cases h : accessFault s a .word with
    | some kind =>
      exact .inr ⟨0, kind, s, by simp, by simp [loadRegs, memRead, h], by simp, by simpa using h, by simp, by simp, rfl⟩
    | none =>
      have first : loadRegs (r :: rest) a s =
          loadRegs rest (a + 4#32) (s.setReg r (memValue s.mem a.toNat .word)) := by simp [loadRegs, memRead, h]
      rcases ih hn.2 (a + 4#32) (s.setReg r (memValue s.mem a.toNat .word)) with
        ⟨u, e, ha, hv, hq, hu⟩ | ⟨k, kind, u, hk, e, ha, hf, hv, hq, hu⟩
      · refine .inl ⟨u, by rw [first, e, nextWord_add]; rfl, ?_, ?_, ?_, by rw [hu]; rfl⟩
        · intro j hj
          cases j with
          | zero => simpa using h
          | succ j => rw [← nextWord_add]; simpa using ha j (by simpa using hj)
        · intro j hj
          cases j with
          | zero => simp [hq r hn.1]
          | succ j => rw [← nextWord_add]; simpa using hv j (by simpa using hj)
        · intro q hh
          rw [List.mem_cons, not_or] at hh
          rw [hq q hh.2, State.reg_setReg_ne _ _ hh.1]
      · refine .inr ⟨k + 1, kind, u, by simpa using hk, by rw [first, e], ?_, ?_, ?_, ?_, by rw [hu]; rfl⟩
        · intro j hj
          cases j with
          | zero => simpa using h
          | succ j => rw [← nextWord_add]; simpa using ha j (by omega)
        · rw [← nextWord_add]; simpa using hf
        · intro j hj
          cases j with
          | zero => simp [hq r fun hh => hn.1 (List.mem_of_mem_take hh)]
          | succ j => rw [← nextWord_add]; simpa using hv j (by omega)
        · intro q hh
          rw [List.take_succ_cons, List.mem_cons, not_or] at hh
          rw [hq q hh.2, State.reg_setReg_ne _ _ hh.1]

/-- `storeRegs` either stores every register to its word, or stops at the first word whose access fails with the
registers before it stored; nothing but memory changes, and of it only the stored words. -/
theorem storeRegs_spec (regs : List Reg) : regs.length < 2 ^ 20 → ∀ (a : Word) (s : State),
    ∃ (k : Nat) (m : Memory) (hk : k ≤ regs.length),
      (∀ j, j < k → accessFault s (a + BitVec.ofNat 32 (4 * j)) .word = none) ∧
      (∀ (j : Nat) (h : j < k), memValue m (a + BitVec.ofNat 32 (4 * j)).toNat .word = s.reg regs[j]) ∧
      (∀ b, outside (wordsFrom a k) b → memGet m b = memGet s.mem b) ∧
      ((k = regs.length ∧ ∃ b, storeRegs regs a s = .done b (s.setMem m)) ∨
        (k < regs.length ∧ ∃ kind, accessFault s (a + BitVec.ofNat 32 (4 * k)) .word = some kind ∧
          storeRegs regs a s = .stopped kind (s.setMem m))) := by
  induction regs with
  | nil => intro _ a s; exact ⟨0, s.mem, by simp, by simp, by simp, by simp, .inl ⟨rfl, a, rfl⟩⟩
  | cons r rest ih =>
    intro hn a s
    simp only [List.length_cons] at hn
    cases h : accessFault s a .word with
    | some kind =>
      exact ⟨0, s.mem, by simp, by simp, by simp, by simp,
        .inr ⟨by simp, kind, by simpa using h, by simp [storeRegs, memWrite, h, State.setMem]⟩⟩
    | none =>
      have first : storeRegs (r :: rest) a s =
          storeRegs rest (a + 4#32) (s.setMem (memStore s.mem a.toNat (s.reg r) .word)) := by
        simp [storeRegs, memWrite, h]
      obtain ⟨k, m, hk, ha, hv, hq, he⟩ :=
        ih (by omega) (a + 4#32) (s.setMem (memStore s.mem a.toNat (s.reg r) .word))
      refine ⟨k + 1, m, by simpa using hk, ?_, ?_, ?_, ?_⟩
      · intro j hj
        cases j with
        | zero => simpa using h
        | succ j => rw [← nextWord_add]; simpa using ha j (by omega)
      · intro j hj
        cases j with
        | zero =>
          have kept : memValue m a.toNat .word =
              memValue (memStore s.mem a.toNat (s.reg r) .word) a.toNat .word :=
            memValue_congr fun b h1 h2 =>
              hq b (outside_laterWords (accessFault_word_aligned h) h1 h2 k 0 (by omega))
          have zero : a + BitVec.ofNat 32 (4 * 0) = a := by simp
          rw [zero, kept, memValue_memStore]
          rfl
        | succ j => rw [← nextWord_add]; exact hv j (by omega)
      · intro b hb
        rw [hq b fun x hx => hb x (by simp [wordsFrom, hx])]
        exact memGet_memStore_outside (hb (a, .word) (by simp [wordsFrom]))
      · rw [first]
        rcases he with ⟨hk, b, e⟩ | ⟨hk, kind, hf, e⟩
        · exact .inl ⟨by simp [hk], b, e⟩
        · exact .inr ⟨by simpa using hk, kind, by rw [← nextWord_add]; simpa using hf, e⟩

/-! ## The accesses of the shim -/

theorem shimAllowed_congr {s t : State} (hs : s.segs = t.segs) (hp : s.params = t.params) (l : List ShimAccess) :
    shimAllowed s l = shimAllowed t l := by
  induction l with
  | nil => rfl
  | cons x rest ih => cases x <;> simp only [shimAllowed, accessFault_congr hs hp, ih]

theorem shimAllowed_setMem (s : State) (m : Memory) (l : List ShimAccess) :
    shimAllowed (s.setMem m) l = shimAllowed s l :=
  shimAllowed_congr (s := s.setMem m) (t := s) rfl rfl l

/-- Allowed accesses are all done. -/
theorem shimAccesses_allowed (l : List ShimAccess) :
    ∀ s : State, shimAllowed s l = true → ∃ a, shimAccesses l s = .done a (s.setMem (shimMemory l s.mem)) := by
  induction l with
  | nil => exact fun s _ => ⟨0#32, rfl⟩
  | cons x rest ih =>
    intro s h
    cases x with
    | read addr w =>
      simp only [shimAllowed, Bool.and_eq_true, beq_iff_eq] at h
      obtain ⟨a, e⟩ := ih s h.2
      exact ⟨a, by simp only [shimAccesses, memRead, h.1, e]; rfl⟩
    | write addr w v =>
      simp only [shimAllowed, Bool.and_eq_true, beq_iff_eq] at h
      obtain ⟨a, e⟩ := ih (s.setMem (memStore s.mem addr.toNat v w)) ((shimAllowed_setMem ..).trans h.2)
      exact ⟨a, by simp only [shimAccesses, memWrite, h.1, e]; rfl⟩

/-- The first access that fails its checks stops the shim, with the writes before it kept. -/
theorem shimAccesses_stopped (before after : List ShimAccess) (x : ShimAccess) (k : FaultKind) :
    ∀ s : State, shimAllowed s before = true → accessFault s (shimTarget x).1 (shimTarget x).2 = some k →
      shimAccesses (before ++ x :: after) s = .stopped k (s.setMem (shimMemory before s.mem)) := by
  induction before with
  | nil =>
    intro s _ h
    cases x <;> simp only [shimTarget] at h <;> simp only [List.nil_append, shimAccesses, memRead, memWrite, h] <;> rfl
  | cons y rest ih =>
    intro s h hx
    cases y with
    | read addr w =>
      simp only [shimAllowed, Bool.and_eq_true, beq_iff_eq] at h
      simp only [List.cons_append, shimAccesses, memRead, h.1, ih s h.2 hx]
      rfl
    | write addr w v =>
      simp only [shimAllowed, Bool.and_eq_true, beq_iff_eq] at h
      simp only [List.cons_append, shimAccesses, memWrite, h.1]
      rw [ih _ ((shimAllowed_setMem ..).trans h.2) (by simpa using hx)]
      rfl

/-- A list of accesses is allowed, or one of them is the first that fails its checks. -/
theorem shimAllowed_or_first (s : State) (l : List ShimAccess) :
    shimAllowed s l = true ∨ ∃ before x after k, l = before ++ x :: after ∧ shimAllowed s before = true ∧
      accessFault s (shimTarget x).1 (shimTarget x).2 = some k := by
  induction l with
  | nil => exact .inl rfl
  | cons y rest ih =>
    cases h : accessFault s (shimTarget y).1 (shimTarget y).2 with
    | some k => exact .inr ⟨[], y, rest, k, rfl, rfl, h⟩
    | none =>
      rcases ih with ih | ⟨before, x, after, k, rfl, hb, hx⟩
      · left
        cases y <;> simp_all [shimAllowed, shimTarget]
      · refine .inr ⟨y :: before, x, after, k, rfl, ?_, hx⟩
        cases y <;> simp_all [shimAllowed, shimTarget]

end Sys2Proof.Machine
end

