-- ==== Sys2Proof/Tests/Slice0.lean ====
section
/-! SUPPORT. The model's own tests: the ill-formed terms, one word per constructor written out from the encoding
tables, one-step vectors of 95_test_vectors.md, and the states that meet the hypotheses of the statements. -/

namespace Sys2Proof.Tests

open Sys2Proof Sys2Proof.Machine

/-! ## WellFormed refuses the ill-formed -/

theorem test_wellFormed_indexing : (Instr.strhImm .al false true true 1#4 2#4 0#4 0#4).wellFormed = false ∧
    (Instr.ldrdReg .al false true true 1#4 2#4 3#4).wellFormed = false ∧
    (Instr.ldrImm .al false true true 1#4 2#4 0#12).wellFormed = false ∧
    (Instr.strbReg .al false true true 1#4 2#4 0#5 .lsl 3#4).wellFormed = false := by decide

theorem test_wellFormed_wide_trap : (Instr.swiOther .al 0x123456#24).wellFormed = false := by decide

theorem test_wellFormed_compact_trap : (Instr.cSwiOther 0xAB#8).wellFormed = false := by decide

theorem test_wellFormed_branch_condition : (Instr.cBcond .al 0#8).wellFormed = false := by decide

/-! ## Decoding: every constructor's word, written out field by field from the formats of 30_encoding.md R94, R101 -/

/-- Every word of a list decodes to the instruction beside it. -/
def decodesTo (l : List (Code × Instr)) : Bool :=
  l.all fun x => match decode x.1 with
    | .ok i => decide (i = x.2)
    | .error _ => false

theorem test_decode_wide_data_processing_1 : decodesTo [
    (.wide 0b1000_0010000_0_1110_1101_0110_00100110#32, .andImm .hi false 14#4 13#4 6#4 38#8),
    (.wide 0b1010_0000000_0_0111_0111_11011_01_0_1100#32, .andReg .ge false 7#4 7#4 27#5 .lsr 12#4),
    (.wide 0b1011_0000000_1_0111_0110_1110_0_11_1_0110#32, .andRsr .lt true 7#4 6#4 14#4 .ror 6#4),
    (.wide 0b0110_0010001_1_0110_1100_1011_10111001#32, .eorImm .vs true 6#4 12#4 11#4 185#8),
    (.wide 0b1110_0000001_1_0100_0001_01111_10_0_1010#32, .eorReg .al true 4#4 1#4 15#5 .asr 10#4),
    (.wide 0b1101_0000001_0_0110_1110_1101_0_01_1_1100#32, .eorRsr .le false 6#4 14#4 13#4 .lsr 12#4),
    (.wide 0b1010_0010010_1_1000_0011_1101_00011111#32, .subImm .ge true 8#4 3#4 13#4 31#8),
    (.wide 0b0110_0000010_1_1001_0011_01000_10_0_1001#32, .subReg .vs true 9#4 3#4 8#5 .asr 9#4),
    (.wide 0b0101_0000010_0_0011_0100_1001_0_11_1_1000#32, .subRsr .pl false 3#4 4#4 9#4 .ror 8#4),
    (.wide 0b0110_0010011_1_0101_1001_1001_00001000#32, .rsbImm .vs true 5#4 9#4 9#4 8#8),
    (.wide 0b1100_0000011_1_0101_1110_10100_01_0_0110#32, .rsbReg .gt true 5#4 14#4 20#5 .lsr 6#4),
    (.wide 0b0101_0000011_1_1100_0010_1001_0_11_1_0001#32, .rsbRsr .pl true 12#4 2#4 9#4 .ror 1#4)] = true := by decide

theorem test_decode_wide_data_processing_2 : decodesTo [
    (.wide 0b0100_0010100_1_1011_1111_1011_10001111#32, .addImm .mi true 11#4 15#4 11#4 143#8),
    (.wide 0b1000_0000100_1_1010_0011_11001_01_0_1001#32, .addReg .hi true 10#4 3#4 25#5 .lsr 9#4),
    (.wide 0b1011_0000100_0_1111_1000_0111_0_11_1_0111#32, .addRsr .lt false 15#4 8#4 7#4 .ror 7#4),
    (.wide 0b1110_0010101_0_0010_0001_0100_11110101#32, .adcImm .al false 2#4 1#4 4#4 245#8),
    (.wide 0b1010_0000101_0_1011_1110_00010_10_0_1000#32, .adcReg .ge false 11#4 14#4 2#5 .asr 8#4),
    (.wide 0b1010_0000101_1_1011_0001_1101_0_01_1_1111#32, .adcRsr .ge true 11#4 1#4 13#4 .lsr 15#4),
    (.wide 0b1000_0010110_1_0111_0001_0011_00011101#32, .sbcImm .hi true 7#4 1#4 3#4 29#8),
    (.wide 0b0111_0000110_0_0111_0011_10000_11_0_1110#32, .sbcReg .vc false 7#4 3#4 16#5 .ror 14#4),
    (.wide 0b0110_0000110_1_1001_0100_0110_0_11_1_1110#32, .sbcRsr .vs true 9#4 4#4 6#4 .ror 14#4),
    (.wide 0b0001_0010111_1_1101_0101_1010_11111100#32, .rscImm .ne true 13#4 5#4 10#4 252#8),
    (.wide 0b1000_0000111_0_1001_0010_10101_10_0_1101#32, .rscReg .hi false 9#4 2#4 21#5 .asr 13#4),
    (.wide 0b1011_0000111_1_1000_0001_1010_0_11_1_0111#32, .rscRsr .lt true 8#4 1#4 10#4 .ror 7#4)] = true := by decide

theorem test_decode_wide_data_processing_3 : decodesTo [
    (.wide 0b1010_00110001_1001_1100_1111_10101010#32, .tstImm .ge 9#4 12#4 15#4 170#8),
    (.wide 0b1000_00010001_1111_0101_10011_11_0_1001#32, .tstReg .hi 15#4 5#4 19#5 .ror 9#4),
    (.wide 0b0110_00010001_0101_0111_1010_0_11_1_1101#32, .tstRsr .vs 5#4 7#4 10#4 .ror 13#4),
    (.wide 0b1010_00110011_1110_1111_1001_01111100#32, .teqImm .ge 14#4 15#4 9#4 124#8),
    (.wide 0b0001_00010011_0110_1010_11111_10_0_1111#32, .teqReg .ne 6#4 10#4 31#5 .asr 15#4),
    (.wide 0b1001_00010011_0011_1000_0101_0_11_1_1010#32, .teqRsr .ls 3#4 8#4 5#4 .ror 10#4),
    (.wide 0b0000_00110101_1100_1101_1111_11111001#32, .cmpImm .eq 12#4 13#4 15#4 249#8),
    (.wide 0b1000_00010101_0100_1010_01010_11_0_0110#32, .cmpReg .hi 4#4 10#4 10#5 .ror 6#4),
    (.wide 0b1010_00010101_1011_0101_0110_0_11_1_1001#32, .cmpRsr .ge 11#4 5#4 6#4 .ror 9#4),
    (.wide 0b0111_00110111_1001_1011_1110_00001011#32, .cmnImm .vc 9#4 11#4 14#4 11#8),
    (.wide 0b1110_00010111_1101_1101_11011_01_0_0010#32, .cmnReg .al 13#4 13#4 27#5 .lsr 2#4),
    (.wide 0b1110_00010111_0100_1011_0111_0_01_1_1100#32, .cmnRsr .al 4#4 11#4 7#4 .lsr 12#4)] = true := by decide

theorem test_decode_wide_data_processing_4 : decodesTo [
    (.wide 0b1001_0011100_1_1001_1101_1011_11110110#32, .orrImm .ls true 9#4 13#4 11#4 246#8),
    (.wide 0b0110_0001100_1_1100_1000_00011_10_0_1101#32, .orrReg .vs true 12#4 8#4 3#5 .asr 13#4),
    (.wide 0b1110_0001100_1_1111_0100_0110_0_10_1_1101#32, .orrRsr .al true 15#4 4#4 6#4 .asr 13#4),
    (.wide 0b0100_0011101_1_0101_1010_1100_01101101#32, .movImm .mi true 5#4 10#4 12#4 109#8),
    (.wide 0b0111_0001101_0_1110_1001_01101_01_0_1010#32, .movReg .vc false 14#4 9#4 13#5 .lsr 10#4),
    (.wide 0b1100_0001101_1_1001_1100_1001_0_11_1_1101#32, .movRsr .gt true 9#4 12#4 9#4 .ror 13#4),
    (.wide 0b0000_0011110_1_0110_1011_0111_00000010#32, .bicImm .eq true 6#4 11#4 7#4 2#8),
    (.wide 0b1101_0001110_1_0001_0111_01111_10_0_1010#32, .bicReg .le true 1#4 7#4 15#5 .asr 10#4),
    (.wide 0b0101_0001110_0_1100_1010_0011_0_01_1_1000#32, .bicRsr .pl false 12#4 10#4 3#4 .lsr 8#4),
    (.wide 0b1011_0011111_1_0100_0011_1000_00100110#32, .mvnImm .lt true 4#4 3#4 8#4 38#8),
    (.wide 0b1001_0001111_1_0110_0111_01001_01_0_1010#32, .mvnReg .ls true 6#4 7#4 9#5 .lsr 10#4),
    (.wide 0b0111_0001111_1_0001_0111_1100_0_10_1_0100#32, .mvnRsr .vc true 1#4 7#4 12#4 .asr 4#4)] = true := by decide

theorem test_decode_wide_miscellaneous : decodesTo [
    (.wide 0b1110_00010_1_001111_0011_000000000000#32, .mrs .al true 3#4),
    (.wide 0b1101_00010_0_10_1100_111100000000_1101#32, .msrReg .le false 12#4 13#4),
    (.wide 0b1110_00110_1_10_0011_1111_1001_00010001#32, .msrImm .al true 3#4 9#4 17#8),
    (.wide 0b0100_000100101111111111110001_1000#32, .bx .mi 8#4),
    (.wide 0b0000_000100101111111111110010_1010#32, .bxj .eq 10#4),
    (.wide 0b0110_000100101111111111110011_0101#32, .blxReg .vs 5#4),
    (.wide 0b1101_000101101111_0100_11110001_1010#32, .clz .le 4#4 10#4),
    (.wide 0b0000_00010000_0001_1110_00000101_0101#32, .qadd .eq 1#4 14#4 5#4),
    (.wide 0b1110_00010010_1001_0100_00000101_0100#32, .qsub .al 9#4 4#4 4#4),
    (.wide 0b0010_00010100_0100_1001_00000101_0010#32, .qdadd .cs 4#4 9#4 2#4),
    (.wide 0b1001_00010110_0010_1111_00000101_0001#32, .qdsub .ls 2#4 15#4 1#4),
    (.wide 0b0100_00010010_011100110001_0111_0010#32, .bkpt .mi 1841#12 2#4)] = true := by decide

theorem test_decode_wide_multiply : decodesTo [
    (.wide 0b1001_00010000_1100_1001_0110_1_0_0_0_1111#32, .smlaXY .ls 12#4 9#4 6#4 false false 15#4),
    (.wide 0b1110_00010010_1100_1110_1110_1_0_1_0_1110#32, .smlawSmulw .al 12#4 14#4 14#4 false true 14#4),
    (.wide 0b0010_00010100_1100_0100_0101_1_1_0_0_0111#32, .smlalXY .cs 12#4 4#4 5#4 true false 7#4),
    (.wide 0b0010_00010110_0011_0100_1001_1_1_0_0_1111#32, .smulXY .cs 3#4 4#4 9#4 true false 15#4),
    (.wide 0b0111_0000000_1_0110_0000_0010_1001_1111#32, .mul .vc true 6#4 2#4 15#4),
    (.wide 0b0001_0000001_0_0010_0111_1010_1001_1000#32, .mla .ne false 2#4 7#4 10#4 8#4),
    (.wide 0b0001_00000100_0001_0110_1110_1001_1011#32, .umaal .ne 1#4 6#4 14#4 11#4),
    (.wide 0b0100_0000100_1_0001_0100_0010_1001_1001#32, .umull .mi true 1#4 4#4 2#4 9#4),
    (.wide 0b0101_0000101_1_1001_1001_0011_1001_1111#32, .umlal .pl true 9#4 9#4 3#4 15#4),
    (.wide 0b1101_0000110_1_1000_1000_1001_1001_0010#32, .smull .le true 8#4 8#4 9#4 2#4),
    (.wide 0b1000_0000111_1_0111_1010_0111_1001_0100#32, .smlal .hi true 7#4 10#4 7#4 4#4)] = true := by decide

theorem test_decode_wide_extra_load_store : decodesTo [
    (.wide 0b0110_00010000_0101_0110_00001001_1000#32, .swp .vs 5#4 6#4 8#4),
    (.wide 0b1100_00010100_1111_1110_00001001_0110#32, .swpb .gt 15#4 14#4 6#4),
    (.wide 0b0010_00011000_1010_1100_11111001_1101#32, .strex .cs 10#4 12#4 13#4),
    (.wide 0b1110_00011001_1100_0111_111110011111#32, .ldrex .al 12#4 7#4),
    (.wide 0b1110_000_0_1_1_0_0_0001_0001_0001_1011_0110#32, .strhImm .al false true false 1#4 1#4 1#4 6#4),
    (.wide 0b0110_000_0_0_0_0_0_0111_1110_00001011_1000#32, .strhReg .vs false false false 7#4 14#4 8#4),
    (.wide 0b0000_000_1_0_1_0_0_0111_1000_0111_1101_1001#32, .ldrdImm .eq true false false 7#4 8#4 7#4 9#4),
    (.wide 0b1100_000_1_1_0_1_0_1001_1000_00001101_1111#32, .ldrdReg .gt true true true 9#4 8#4 15#4),
    (.wide 0b0001_000_1_1_1_1_0_1101_0111_1000_1111_1111#32, .strdImm .ne true true true 13#4 7#4 8#4 15#4),
    (.wide 0b1000_000_0_1_0_0_0_0100_0001_00001111_1000#32, .strdReg .hi false true false 4#4 1#4 8#4),
    (.wide 0b0000_000_0_1_1_0_1_0001_0101_0110_1011_0110#32, .ldrhImm .eq false true false 1#4 5#4 6#4 6#4),
    (.wide 0b1110_000_1_1_0_1_1_0001_1001_00001011_1101#32, .ldrhReg .al true true true 1#4 9#4 13#4),
    (.wide 0b0000_000_0_0_1_0_1_0011_1011_1010_1101_1101#32, .ldrsbImm .eq false false false 3#4 11#4 10#4 13#4),
    (.wide 0b0011_000_1_1_0_0_1_0101_1011_00001101_1110#32, .ldrsbReg .cc true true false 5#4 11#4 14#4),
    (.wide 0b1001_000_1_0_1_0_1_1100_0010_1000_1111_1011#32, .ldrshImm .ls true false false 12#4 2#4 8#4 11#4),
    (.wide 0b0110_000_0_1_0_0_1_1001_0001_00001111_1010#32, .ldrshReg .vs false true false 9#4 1#4 10#4)] = true := by decide

theorem test_decode_wide_load_store : decodesTo [
    (.wide 0b0110_010_0_0_0_0_0_1111_1011_001100001010#32, .strImm .vs false false false 15#4 11#4 778#12),
    (.wide 0b1010_011_0_0_0_0_0_0111_0011_11011_11_0_0011#32, .strReg .ge false false false 7#4 3#4 27#5 .ror 3#4),
    (.wide 0b0011_0100_1_010_1100_0111_100100110010#32, .strtImm .cc true 12#4 7#4 2354#12),
    (.wide 0b0010_0110_1_010_1100_1101_00111_01_0_0110#32, .strtReg .cs true 12#4 13#4 7#5 .lsr 6#4),
    (.wide 0b0000_010_1_0_0_0_1_0100_0111_001001110001#32, .ldrImm .eq true false false 4#4 7#4 625#12),
    (.wide 0b0011_011_1_1_0_0_1_1110_0110_01000_10_0_1011#32, .ldrReg .cc true true false 14#4 6#4 8#5 .asr 11#4),
    (.wide 0b1001_0100_1_011_1111_1010_001110101000#32, .ldrtImm .ls true 15#4 10#4 936#12),
    (.wide 0b1010_0110_1_011_1110_1010_00101_11_0_1010#32, .ldrtReg .ge true 14#4 10#4 5#5 .ror 10#4),
    (.wide 0b0010_010_1_1_1_1_0_1101_0011_110111000011#32, .strbImm .cs true true true 13#4 3#4 3523#12),
    (.wide 0b0110_011_0_1_1_0_0_1001_0101_10000_10_0_0101#32, .strbReg .vs false true false 9#4 5#4 16#5 .asr 5#4),
    (.wide 0b1011_0100_1_110_0010_0110_000101111001#32, .strbtImm .lt true 2#4 6#4 377#12),
    (.wide 0b0011_0110_1_110_0011_0011_00001_11_0_0011#32, .strbtReg .cc true 3#4 3#4 1#5 .ror 3#4),
    (.wide 0b0111_010_0_1_1_0_1_1111_0101_111011000100#32, .ldrbImm .vc false true false 15#4 5#4 3780#12),
    (.wide 0b1000_011_0_1_1_0_1_0100_1011_01000_11_0_1101#32, .ldrbReg .hi false true false 4#4 11#4 8#5 .ror 13#4),
    (.wide 0b0000_0100_1_111_0101_0100_011010110010#32, .ldrbtImm .eq true 5#4 4#4 1714#12),
    (.wide 0b0011_0110_1_111_1101_0001_00011_10_0_0110#32, .ldrbtReg .cc true 13#4 1#4 3#5 .asr 6#4)] = true := by decide

theorem test_decode_wide_block_branch : decodesTo [
    (.wide 0b0101_011_01010010001010011001_1_0010#32, .media .pl 336537#20 2#4),
    (.wide 0b0011_100_1_0_1_0_0_1111_1001001100011000#32, .stm .cc true false true false 15#4 37656#16),
    (.wide 0b0000_100_1_0_1_1_1_1010_1101110001110101#32, .ldm .eq true false true true 10#4 56437#16),
    (.wide 0b1011_1010_101111010100110011110101#32, .b .lt 12406005#24),
    (.wide 0b1000_1011_001010000110111101010000#32, .bl .hi 2649936#24),
    (.wide 0b0111_110_0000010110011111001001011#32, .copMem .vc 736843#25),
    (.wide 0b0000_1110_101111001101101000111101#32, .copReg .eq 12376637#24),
    (.wide 0b0010_1111000100100011010001010110#32, .swiTrap .cs),
    (.wide 0b0111_1111_010011000011000001000011#32, .swiOther .vc 4993091#24)] = true := by decide

theorem test_decode_compact_shift_add : decodesTo [
    (.compact 0b00000_01000_100_001#16, .cLslImm 8#5 4#3 1#3),
    (.compact 0b00001_11111_011_011#16, .cLsrImm 31#5 3#3 3#3),
    (.compact 0b00010_11110_101_111#16, .cAsrImm 30#5 5#3 7#3),
    (.compact 0b0001100_010_100_100#16, .cAddReg 2#3 4#3 4#3),
    (.compact 0b0001101_001_100_001#16, .cSubReg 1#3 4#3 1#3),
    (.compact 0b0001110_111_010_010#16, .cAddImm3 7#3 2#3 2#3),
    (.compact 0b0001111_110_111_101#16, .cSubImm3 6#3 7#3 5#3),
    (.compact 0b00100_010_11100100#16, .cMovImm8 2#3 228#8),
    (.compact 0b00101_111_01100010#16, .cCmpImm8 7#3 98#8),
    (.compact 0b00110_101_00000011#16, .cAddImm8 5#3 3#8),
    (.compact 0b00111_110_10011110#16, .cSubImm8 6#3 158#8)] = true := by decide

theorem test_decode_compact_alu : decodesTo [
    (.compact 0b0100000000_110_101#16, .cAnd 6#3 5#3),
    (.compact 0b0100000001_110_101#16, .cEor 6#3 5#3),
    (.compact 0b0100000010_111_101#16, .cLsl 7#3 5#3),
    (.compact 0b0100000011_111_110#16, .cLsr 7#3 6#3),
    (.compact 0b0100000100_100_001#16, .cAsr 4#3 1#3),
    (.compact 0b0100000101_101_100#16, .cAdc 5#3 4#3),
    (.compact 0b0100000110_011_101#16, .cSbc 3#3 5#3),
    (.compact 0b0100000111_011_100#16, .cRor 3#3 4#3),
    (.compact 0b0100001000_011_111#16, .cTst 3#3 7#3),
    (.compact 0b0100001001_100_001#16, .cNeg 4#3 1#3),
    (.compact 0b0100001010_100_101#16, .cCmp 4#3 5#3),
    (.compact 0b0100001011_110_001#16, .cCmn 6#3 1#3),
    (.compact 0b0100001100_011_110#16, .cOrr 3#3 6#3),
    (.compact 0b0100001101_011_001#16, .cMul 3#3 1#3),
    (.compact 0b0100001110_110_011#16, .cBic 6#3 3#3),
    (.compact 0b0100001111_010_001#16, .cMvn 2#3 1#3)] = true := by decide

theorem test_decode_compact_high : decodesTo [
    (.compact 0b01000100_0_1_110_111#16, .cAddHi 14#4 7#4),
    (.compact 0b01000101_0_1_111_111#16, .cCmpHi 15#4 7#4),
    (.compact 0b01000110_1_1_111_011#16, .cMovHi 15#4 11#4),
    (.compact 0b010001110_0_011_000#16, .cBx 3#4),
    (.compact 0b010001111_1_110_000#16, .cBlxReg 14#4)] = true := by decide

theorem test_decode_compact_load_store : decodesTo [
    (.compact 0b01001_110_00001000#16, .cLdrLit 6#3 8#8),
    (.compact 0b0101000_001_111_101#16, .cStrReg 1#3 7#3 5#3),
    (.compact 0b0101001_100_110_101#16, .cStrhReg 4#3 6#3 5#3),
    (.compact 0b0101010_100_111_010#16, .cStrbReg 4#3 7#3 2#3),
    (.compact 0b0101011_001_111_011#16, .cLdrsbReg 1#3 7#3 3#3),
    (.compact 0b0101100_110_001_010#16, .cLdrReg 6#3 1#3 2#3),
    (.compact 0b0101101_011_001_001#16, .cLdrhReg 3#3 1#3 1#3),
    (.compact 0b0101110_111_101_100#16, .cLdrbReg 7#3 5#3 4#3),
    (.compact 0b0101111_010_110_101#16, .cLdrshReg 2#3 6#3 5#3),
    (.compact 0b01100_01110_011_101#16, .cStrImm 14#5 3#3 5#3),
    (.compact 0b01101_10110_011_111#16, .cLdrImm 22#5 3#3 7#3),
    (.compact 0b01110_11010_010_011#16, .cStrbImm 26#5 2#3 3#3),
    (.compact 0b01111_01000_011_110#16, .cLdrbImm 8#5 3#3 6#3),
    (.compact 0b10000_10110_101_110#16, .cStrhImm 22#5 5#3 6#3),
    (.compact 0b10001_10101_010_101#16, .cLdrhImm 21#5 2#3 5#3),
    (.compact 0b10010_001_00010010#16, .cStrSp 1#3 18#8),
    (.compact 0b10011_111_00010011#16, .cLdrSp 7#3 19#8),
    (.compact 0b10100_001_11011010#16, .cAddPc 1#3 218#8),
    (.compact 0b10101_011_10001101#16, .cAddSp 3#3 141#8)] = true := by decide

theorem test_decode_compact_rest : decodesTo [
    (.compact 0b101100000_0000111#16, .cAddSpImm 7#7),
    (.compact 0b101100001_0011101#16, .cSubSpImm 29#7),
    (.compact 0b1011001000_011_111#16, .cSxth 3#3 7#3),
    (.compact 0b1011001001_011_001#16, .cSxtb 3#3 1#3),
    (.compact 0b1011001010_111_010#16, .cUxth 7#3 2#3),
    (.compact 0b1011001011_001_011#16, .cUxtb 1#3 3#3),
    (.compact 0b1011010_1_01001000#16, .cPush true 72#8),
    (.compact 0b1011110_1_10110111#16, .cPop true 183#8),
    (.compact 0b101101100101_1_000#16, .cSetend true),
    (.compact 0b10110110011_0_0_0_0_1#16, .cCps false false false true),
    (.compact 0b1011101000_110_011#16, .cRev 6#3 3#3),
    (.compact 0b1011101001_011_101#16, .cRev16 3#3 5#3),
    (.compact 0b1011101010_111_110#16, .cRevUnalloc 7#3 6#3),
    (.compact 0b1011101011_100_001#16, .cRevsh 4#3 1#3),
    (.compact 0b10111110_11110011#16, .cBkpt 243#8),
    (.compact 0b11000_010_11111010#16, .cStmia 2#3 250#8),
    (.compact 0b11001_001_00001101#16, .cLdmia 1#3 13#8),
    (.compact 0b1101_0010_01001011#16, .cBcond .cs 75#8),
    (.compact 0b11011110_10000010#16, .cBcond1110 130#8),
    (.compact 0b1101111110101011#16, .cSwiTrap),
    (.compact 0b11011111_01000000#16, .cSwiOther 64#8),
    (.compact 0b11100_01001010000#16, .cB 592#11),
    (.compact 0b11101_01101101111#16, .cBlxSuffix 879#11),
    (.compact 0b11110_11101101111#16, .cBlPrefix 1903#11),
    (.compact 0b11111_00100010001#16, .cBlSuffix 273#11)] = true := by decide

/-! ## One step

Each vector is a row of 95_test_vectors.md part 2, with that file's test configuration: the start state lists what
matters and the end state what changed. -/

/-- The segment table of the test configuration. -/
def testSegments : SegmentTable :=
  { code := { base := 0x8000, size := 0x100 }
    rodata := { base := 0xC000, size := 0x100 }
    data := { base := 0x10000, size := 0x100 }
    bss := { base := 0x20000, size := 0x100 } }

/-- Registers written one after another. -/
def withRegs : List (Reg × Word) → State → State
  | [], s => s
  | (r, v) :: rest, s => withRegs rest (s.setReg r v)

/-- Words written to memory one after another. -/
def withWords : List (Nat × Word) → State → State
  | [], s => s
  | (a, v) :: rest, s => withWords rest (s.setMem (memStore s.mem a v .word))

/-- A start state: one instruction at 0x8000, a status word, registers and words of memory. -/
def begins (x : Code) (status : Word) (regs : List (Reg × Word)) (words : List (Nat × Word)) : State :=
  let s := { State.reset with segs := testSegments, mode := modeOfCode x, status := status }
  withWords words (withRegs ((pcReg, 0x8000#32) :: regs)
    (s.setMem (memStore [] 0x8000 (wordOfCode x) (modeOfCode x).instrWidth)))

/-- One step ends in exactly the start state with the instruction latched and what the lists say changed. -/
def endsIn (x : Code) (s : State) (status pc : Word) (regs : List (Reg × Word)) (words : List (Nat × Word)) : Bool :=
  match step s with
  | .next t => decide (t = withWords words (withRegs ((pcReg, pc) :: regs)
      ((s.setStatus status).setInstr 0x8000#32 (wordOfCode x))))
  | _ => false

/-- One step from `begins` ends as `endsIn` says. -/
def runs (x : Code) (st : Word) (regs : List (Reg × Word)) (words : List (Nat × Word)) (st' pc : Word)
    (regs' : List (Reg × Word)) (words' : List (Nat × Word)) : Bool :=
  endsIn x (begins x st regs words) st' pc regs' words'

/-- One step faults with this kind and nothing but the program counter advance and the latch done. -/
def faults (x : Code) (regs : List (Reg × Word)) (words : List (Nat × Word)) (k : FaultKind) : Bool :=
  match step (begins x 0#32 regs words) with
  | .fault f => decide (faultKind f = some k) &&
      decide (faultFinal f = (advance (begins x 0#32 regs words) (wordOfCode x)).setRun (.faulted k))
  | _ => false

/-- One step is refused with the mark of this instruction. -/
def refuses (x : Code) (regs : List (Reg × Word)) : Bool :=
  match step (begins x 0#32 regs []) with
  | .refused (.registerCombination a w _) => a == 0x8000#32 && w == wordOfCode x
  | _ => false

-- line 317: ANDS r0, r1, #0x0F
theorem test_step_andImm :
    runs (.wide 0xE211000F#32) 0x30000000#32 [(1#4, 0x000000F0#32)] [] 0x70000000#32 0x00008004#32 [] [] = true := by decide

-- line 318: EORS r0, r1, #0xFF
theorem test_step_eorImm :
    runs (.wide 0xE23100FF#32) 0#32 [(1#4, 0x000000FF#32)] [] 0x40000000#32 0x00008004#32 [] [] = true := by decide

-- line 325: SUBS r0, r1, #1
theorem test_step_subImm :
    runs (.wide 0xE2510001#32) 0#32 [(1#4, 0x00000000#32)] [] 0x80000000#32 0x00008004#32 [(0#4, 0xFFFFFFFF#32)] [] = true := by decide

-- line 327: RSBS r0, r1, #0
theorem test_step_rsbImm :
    runs (.wide 0xE2710000#32) 0#32 [(1#4, 0x80000000#32)] [] 0x90000000#32 0x00008004#32 [(0#4, 0x80000000#32)] [] = true := by decide

-- line 324: ADDS r0, r1, #1
theorem test_step_addImm :
    runs (.wide 0xE2910001#32) 0#32 [(1#4, 0x7FFFFFFF#32)] [] 0x90000000#32 0x00008004#32 [(0#4, 0x80000000#32)] [] = true := by decide

-- line 340: ADD r0, pc, pc
theorem test_step_addReg :
    runs (.wide 0xE08F000F#32) 0#32 [] [] 0#32 0x00008004#32 [(0#4, 0x00010010#32)] [] = true := by decide

-- line 350: ADDEQ r0, r1, pc, LSL r2
theorem test_step_addRsr : runs (.wide 0x0081021F#32) 0#32 [] [] 0#32 0x00008004#32 [] [] = true := by decide

-- line 328: ADCS r0, r1, r2
theorem test_step_adcReg :
    runs (.wide 0xE0B10002#32) 0x20000000#32 [(1#4, 0xFFFFFFFF#32), (2#4, 0x00000000#32)] [] 0x60000000#32 0x00008004#32 [] [] = true := by decide

-- line 329: SBCS r0, r1, r2
theorem test_step_sbcReg :
    runs (.wide 0xE0D10002#32) 0#32 [(1#4, 0x00000005#32), (2#4, 0x00000005#32)] [] 0x80000000#32 0x00008004#32 [(0#4, 0xFFFFFFFF#32)] [] = true := by decide

-- line 330: RSCS r0, r1, r2
theorem test_step_rscReg :
    runs (.wide 0xE0F10002#32) 0x20000000#32 [(1#4, 0x00000001#32), (2#4, 0x00000003#32)] [] 0x20000000#32 0x00008004#32 [(0#4, 0x00000002#32)] [] = true := by decide

-- line 321: TST r1, #1
theorem test_step_tstImm :
    runs (.wide 0xE3110001#32) 0#32 [(1#4, 0x00000002#32)] [] 0x40000000#32 0x00008004#32 [] [] = true := by decide

-- line 322: TEQ r1, r2
theorem test_step_teqReg :
    runs (.wide 0xE1310002#32) 0x10000000#32 [(1#4, 0x80000000#32), (2#4, 0x00000000#32)] [] 0x90000000#32 0x00008004#32 [] [] = true := by decide

-- line 236: CMP r0, #0
theorem test_step_cmpImm :
    runs (.wide 0xE3500000#32) 0#32 [(0#4, 0x00000000#32)] [] 0x60000000#32 0x00008004#32 [] [] = true := by decide

-- line 331: CMN r1, #1
theorem test_step_cmnImm :
    runs (.wide 0xE3710001#32) 0#32 [(1#4, 0xFFFFFFFF#32)] [] 0x60000000#32 0x00008004#32 [] [] = true := by decide

-- line 319: ORR r0, r1, r2, LSL #4
theorem test_step_orrReg :
    runs (.wide 0xE1810202#32) 0#32 [(1#4, 0x00000001#32), (2#4, 0x0000000F#32)] [] 0#32 0x00008004#32 [(0#4, 0x000000F1#32)] [] = true := by decide

-- line 315: MOVS r0, #0x80000000
theorem test_step_movImm :
    runs (.wide 0xE3B00102#32) 0#32 [] [] 0xA0000000#32 0x00008004#32 [(0#4, 0x80000000#32)] [] = true := by decide

-- line 333: MOVS r0, r1, ASR #32
theorem test_step_movReg :
    runs (.wide 0xE1B00041#32) 0#32 [(1#4, 0x80000000#32)] [] 0xA0000000#32 0x00008004#32 [(0#4, 0xFFFFFFFF#32)] [] = true := by decide

-- line 338: MOVS r0, r1, LSL r2
theorem test_step_movRsr :
    runs (.wide 0xE1B00211#32) 0x20000000#32 [(1#4, 0x80000001#32), (2#4, 0x00000100#32)] [] 0xA0000000#32 0x00008004#32 [(0#4, 0x80000001#32)] [] = true := by decide

-- line 320: BICS r0, r1, r2
theorem test_step_bicReg :
    runs (.wide 0xE1D10002#32) 0#32 [(1#4, 0xFFFFFFFF#32), (2#4, 0x7FFFFFFF#32)] [] 0x80000000#32 0x00008004#32 [(0#4, 0x80000000#32)] [] = true := by decide

-- line 316: MVNS r0, #0
theorem test_step_mvnImm :
    runs (.wide 0xE3F00000#32) 0#32 [] [] 0x80000000#32 0x00008004#32 [(0#4, 0xFFFFFFFF#32)] [] = true := by decide

-- line 356: MRS r0, CPSR
theorem test_step_mrs :
    runs (.wide 0xE10F0000#32) 0x6000001F#32 [] [] 0x6000001F#32 0x00008004#32 [(0#4, 0x6000001F#32)] [] = true := by decide

-- line 256: BX r0
theorem test_step_bx :
    runs (.wide 0xE12FFF10#32) 0#32 [(0#4, 0x00008080#32)] [] 0#32 0x00008080#32 [] [] = true := by decide

-- line 364: BLX r3
theorem test_step_blxReg :
    runs (.wide 0xE12FFF33#32) 0#32 [(3#4, 0x00008040#32)] [] 0#32 0x00008040#32 [(14#4, 0x00008004#32)] [] = true := by decide

-- line 370: CLZ r0, r1
theorem test_step_clz :
    runs (.wide 0xE16F0F11#32) 0#32 [(1#4, 0x00000000#32)] [] 0#32 0x00008004#32 [(0#4, 0x00000020#32)] [] = true := by decide

-- line 378: MULS r0, r1, r2
theorem test_step_mul :
    runs (.wide 0xE0100291#32) 0#32 [(1#4, 0xFFFFFFFF#32), (2#4, 0x00000002#32)] [] 0x80000000#32 0x00008004#32 [(0#4, 0xFFFFFFFE#32)] [] = true := by decide

-- line 419: STRH r0, [r1, #0x12]
theorem test_step_strhImm :
    runs (.wide 0xE1C101B2#32) 0#32 [(0#4, 0x12345678#32), (1#4, 0x00010000#32)] [] 0#32 0x00008004#32 [] [(0x10010, 0x56780000#32)] = true := by decide

-- line 424: LDRH r0, [r1], #2
theorem test_step_ldrhImm :
    runs (.wide 0xE0D100B2#32) 0#32 [(1#4, 0x00010000#32)] [(0x10000, 0x00001234#32)] 0#32 0x00008004#32 [(0#4, 0x00001234#32), (1#4, 0x00010002#32)] [] = true := by decide

-- line 418: LDRH r0, [r1, r2]
theorem test_step_ldrhReg :
    runs (.wide 0xE19100B2#32) 0#32 [(1#4, 0x00010000#32), (2#4, 0x00000006#32)] [(0x10004, 0xBEEF0000#32)] 0#32 0x00008004#32 [(0#4, 0x0000BEEF#32)] [] = true := by decide

-- line 420: LDRSB r0, [r1]
theorem test_step_ldrsbImm :
    runs (.wide 0xE1D100D0#32) 0#32 [(1#4, 0x00010000#32)] [(0x10000, 0x00000080#32)] 0#32 0x00008004#32 [(0#4, 0xFFFFFF80#32)] [] = true := by decide

-- line 421: LDRSB r0, [r1, r2]
theorem test_step_ldrsbReg :
    runs (.wide 0xE19100D2#32) 0#32 [(1#4, 0x00010000#32), (2#4, 0x00000001#32)] [(0x10000, 0x00007F00#32)] 0#32 0x00008004#32 [(0#4, 0x0000007F#32)] [] = true := by decide

-- line 422: LDRSH r0, [r1, r2]
theorem test_step_ldrshReg :
    runs (.wide 0xE19100F2#32) 0#32 [(1#4, 0x00010000#32), (2#4, 0x00000002#32)] [(0x10000, 0x80010000#32)] 0#32 0x00008004#32 [(0#4, 0xFFFF8001#32)] [] = true := by decide

-- line 411: STR r0, [r1, #-4]!
theorem test_step_strImm :
    runs (.wide 0xE5210004#32) 0#32 [(0#4, 0xA5A5A5A5#32), (1#4, 0x00010008#32)] [] 0#32 0x00008004#32 [(1#4, 0x00010004#32)] [(0x10004, 0xA5A5A5A5#32)] = true := by decide

-- line 400: LDR r0, [r1, #4]!
theorem test_step_ldrImm :
    runs (.wide 0xE5B10004#32) 0#32 [(1#4, 0x00010000#32)] [(0x10004, 0xCAFEBABE#32)] 0#32 0x00008004#32 [(0#4, 0xCAFEBABE#32), (1#4, 0x00010004#32)] [] = true := by decide

-- line 403: LDR r0, [r1, r2]
theorem test_step_ldrReg :
    runs (.wide 0xE7910002#32) 0#32 [(1#4, 0x00010000#32), (2#4, 0x00000008#32)] [(0x10008, 0x55AA55AA#32)] 0#32 0x00008004#32 [(0#4, 0x55AA55AA#32)] [] = true := by decide

-- line 402: LDRT r0, [r1], #4
theorem test_step_ldrtImm :
    runs (.wide 0xE4B10004#32) 0#32 [(1#4, 0x00010000#32)] [(0x10000, 0x01020304#32)] 0#32 0x00008004#32 [(0#4, 0x01020304#32), (1#4, 0x00010004#32)] [] = true := by decide

-- line 415: STRB r0, [r1, #1]
theorem test_step_strbImm :
    runs (.wide 0xE5C10001#32) 0#32 [(0#4, 0x12345678#32), (1#4, 0x00010000#32)] [] 0#32 0x00008004#32 [] [(0x10000, 0x00007800#32)] = true := by decide

-- line 269: LDRB r0, [r1]
theorem test_step_ldrbImm :
    runs (.wide 0xE5D10000#32) 0#32 [(1#4, 0x00010000#32)] [(0x10000, 0x11223344#32)] 0#32 0x00008004#32 [(0#4, 0x00000044#32)] [] = true := by decide

-- line 416: LDRBT r0, [r1], #1
theorem test_step_ldrbtImm :
    runs (.wide 0xE4F10001#32) 0#32 [(1#4, 0x00010000#32)] [(0x10000, 0x0000007F#32)] 0#32 0x00008004#32 [(0#4, 0x0000007F#32), (1#4, 0x00010001#32)] [] = true := by decide

-- line 443: B (offset 0)
theorem test_step_b : runs (.wide 0xEA000000#32) 0#32 [] [] 0#32 0x00008008#32 [] [] = true := by decide

-- line 447: BL 0x8040
theorem test_step_bl :
    runs (.wide 0xEB00000E#32) 0#32 [(14#4, 0x00001111#32)] [] 0#32 0x00008040#32 [(14#4, 0x00008004#32)] [] = true := by decide

-- line 459: SWI 0
theorem test_step_swiOther :
    runs (.wide 0xEF000000#32) 0#32 [(0#4, 0x00000007#32)] [] 0#32 0x00008004#32 [] [] = true := by decide

-- line 469: LSL r0, r1, #2
theorem test_step_cLslImm :
    runs (.compact 0x0088#16) 0x10000000#32 [(1#4, 0x40000001#32)] [] 0x30000000#32 0x00008002#32 [(0#4, 0x00000004#32)] [] = true := by decide

-- line 471: LSR r0, r1, #32
theorem test_step_cLsrImm :
    runs (.compact 0x0808#16) 0#32 [(1#4, 0x80000000#32)] [] 0x60000000#32 0x00008002#32 [] [] = true := by decide

-- line 472: ASR r0, r1, #32
theorem test_step_cAsrImm :
    runs (.compact 0x1008#16) 0#32 [(1#4, 0x80000000#32)] [] 0xA0000000#32 0x00008002#32 [(0#4, 0xFFFFFFFF#32)] [] = true := by decide

-- line 474: ADD r0, r1, r2
theorem test_step_cAddReg :
    runs (.compact 0x1888#16) 0#32 [(1#4, 0x7FFFFFFF#32), (2#4, 0x00000001#32)] [] 0x90000000#32 0x00008002#32 [(0#4, 0x80000000#32)] [] = true := by decide

-- line 475: SUB r0, r1, r2
theorem test_step_cSubReg :
    runs (.compact 0x1A88#16) 0#32 [(1#4, 0x00000000#32), (2#4, 0x00000001#32)] [] 0x80000000#32 0x00008002#32 [(0#4, 0xFFFFFFFF#32)] [] = true := by decide

-- line 476: ADD r0, r1, #7
theorem test_step_cAddImm3 :
    runs (.compact 0x1DC8#16) 0#32 [(1#4, 0xFFFFFFF9#32)] [] 0x60000000#32 0x00008002#32 [] [] = true := by decide

-- line 477: SUB r0, r1, #1
theorem test_step_cSubImm3 :
    runs (.compact 0x1E48#16) 0#32 [(1#4, 0x00000001#32)] [] 0x60000000#32 0x00008002#32 [] [] = true := by decide

-- line 478: MOV r0, #5
theorem test_step_cMovImm8 :
    runs (.compact 0x2005#16) 0xF0000000#32 [] [] 0x30000000#32 0x00008002#32 [(0#4, 0x00000005#32)] [] = true := by decide

-- line 480: CMP r0, #5
theorem test_step_cCmpImm8 :
    runs (.compact 0x2805#16) 0#32 [(0#4, 0x00000005#32)] [] 0x60000000#32 0x00008002#32 [] [] = true := by decide

-- line 482: ADD r0, #3
theorem test_step_cAddImm8 :
    runs (.compact 0x3003#16) 0xF0000000#32 [(0#4, 0x00000005#32)] [] 0#32 0x00008002#32 [(0#4, 0x00000008#32)] [] = true := by decide

-- line 484: SUB r0, #1
theorem test_step_cSubImm8 :
    runs (.compact 0x3801#16) 0#32 [(0#4, 0x80000000#32)] [] 0x30000000#32 0x00008002#32 [(0#4, 0x7FFFFFFF#32)] [] = true := by decide

-- line 485: AND r0, r1
theorem test_step_cAnd :
    runs (.compact 0x4008#16) 0x30000000#32 [(0#4, 0xF0F0F0F0#32), (1#4, 0x0FF00FF0#32)] [] 0x30000000#32 0x00008002#32 [(0#4, 0x00F000F0#32)] [] = true := by decide

-- line 486: EOR r0, r1
theorem test_step_cEor :
    runs (.compact 0x4048#16) 0#32 [(0#4, 0xFFFFFFFF#32), (1#4, 0xFFFFFFFF#32)] [] 0x40000000#32 0x00008002#32 [(0#4, 0x00000000#32)] [] = true := by decide

-- line 487: LSL r0, r1
theorem test_step_cLsl :
    runs (.compact 0x4088#16) 0#32 [(0#4, 0x00000001#32), (1#4, 0x00000020#32)] [] 0x60000000#32 0x00008002#32 [(0#4, 0x00000000#32)] [] = true := by decide

-- line 490: LSR r0, r1
theorem test_step_cLsr :
    runs (.compact 0x40C8#16) 0#32 [(0#4, 0x80000000#32), (1#4, 0x00000020#32)] [] 0x60000000#32 0x00008002#32 [(0#4, 0x00000000#32)] [] = true := by decide

-- line 491: ASR r0, r1
theorem test_step_cAsr :
    runs (.compact 0x4108#16) 0#32 [(0#4, 0x80000000#32), (1#4, 0x000000FF#32)] [] 0xA0000000#32 0x00008002#32 [(0#4, 0xFFFFFFFF#32)] [] = true := by decide

-- line 492: ADC r0, r1
theorem test_step_cAdc :
    runs (.compact 0x4148#16) 0x20000000#32 [(0#4, 0xFFFFFFFF#32), (1#4, 0x00000000#32)] [] 0x60000000#32 0x00008002#32 [(0#4, 0x00000000#32)] [] = true := by decide

-- line 493: SBC r0, r1
theorem test_step_cSbc :
    runs (.compact 0x4188#16) 0#32 [(0#4, 0x00000000#32), (1#4, 0x00000000#32)] [] 0x80000000#32 0x00008002#32 [(0#4, 0xFFFFFFFF#32)] [] = true := by decide

-- line 495: ROR r0, r1
theorem test_step_cRor :
    runs (.compact 0x41C8#16) 0#32 [(0#4, 0x0000000F#32), (1#4, 0x00000004#32)] [] 0xA0000000#32 0x00008002#32 [(0#4, 0xF0000000#32)] [] = true := by decide

-- line 496: TST r0, r1
theorem test_step_cTst :
    runs (.compact 0x4208#16) 0#32 [(0#4, 0x00000001#32), (1#4, 0x00000002#32)] [] 0x40000000#32 0x00008002#32 [] [] = true := by decide

-- line 497: NEG r0, r1
theorem test_step_cNeg :
    runs (.compact 0x4248#16) 0#32 [(1#4, 0x00000001#32)] [] 0x80000000#32 0x00008002#32 [(0#4, 0xFFFFFFFF#32)] [] = true := by decide

-- line 500: CMP r0, r1
theorem test_step_cCmp :
    runs (.compact 0x4288#16) 0#32 [(0#4, 0x80000000#32), (1#4, 0x00000001#32)] [] 0x30000000#32 0x00008002#32 [] [] = true := by decide

-- line 501: CMN r0, r1
theorem test_step_cCmn :
    runs (.compact 0x42C8#16) 0#32 [(0#4, 0x00000001#32), (1#4, 0xFFFFFFFF#32)] [] 0x60000000#32 0x00008002#32 [] [] = true := by decide

-- line 502: ORR r0, r1
theorem test_step_cOrr :
    runs (.compact 0x4308#16) 0#32 [(0#4, 0x80000000#32), (1#4, 0x00000001#32)] [] 0x80000000#32 0x00008002#32 [(0#4, 0x80000001#32)] [] = true := by decide

-- line 503: MUL r0, r1
theorem test_step_cMul :
    runs (.compact 0x4348#16) 0x30000000#32 [(0#4, 0x00010000#32), (1#4, 0x00010000#32)] [] 0x70000000#32 0x00008002#32 [(0#4, 0x00000000#32)] [] = true := by decide

-- line 504: BIC r0, r1
theorem test_step_cBic :
    runs (.compact 0x4388#16) 0#32 [(0#4, 0x000000FF#32), (1#4, 0x0000000F#32)] [] 0#32 0x00008002#32 [(0#4, 0x000000F0#32)] [] = true := by decide

-- line 505: MVN r0, r1
theorem test_step_cMvn :
    runs (.compact 0x43C8#16) 0#32 [(1#4, 0xFFFFFFFF#32)] [] 0x40000000#32 0x00008002#32 [] [] = true := by decide

-- line 506: ADD r8, r1
theorem test_step_cAddHi :
    runs (.compact 0x4488#16) 0x80000000#32 [(1#4, 0x00000001#32), (8#4, 0xFFFFFFFF#32)] [] 0x80000000#32 0x00008002#32 [(8#4, 0x00000000#32)] [] = true := by decide

-- line 510: CMP r0, r8
theorem test_step_cCmpHi :
    runs (.compact 0x4540#16) 0#32 [(0#4, 0x00000005#32), (8#4, 0x00000005#32)] [] 0x60000000#32 0x00008002#32 [] [] = true := by decide

-- line 513: MOV lr, r0
theorem test_step_cMovHi :
    runs (.compact 0x4686#16) 0#32 [(0#4, 0x00008041#32)] [] 0#32 0x00008002#32 [(14#4, 0x00008041#32)] [] = true := by decide

-- line 249: BX r0
theorem test_step_cBx :
    runs (.compact 0x4700#16) 0x60000000#32 [(0#4, 0x00008081#32), (1#4, 0x12345678#32), (14#4, 0xCAFE0001#32)] [] 0x60000000#32 0x00008080#32 [] [] = true := by decide

-- line 521: BLX r3
theorem test_step_cBlxReg :
    runs (.compact 0x4798#16) 0#32 [(3#4, 0x00008041#32)] [] 0#32 0x00008040#32 [(14#4, 0x00008003#32)] [] = true := by decide

-- line 531: LDR r0, [pc, #4]
theorem test_step_cLdrLit :
    runs (.compact 0x4801#16) 0#32 [] [(0x8008, 0x12345678#32)] 0#32 0x00008002#32 [(0#4, 0x12345678#32)] [] = true := by decide

-- line 533: STR r0, [r1, r2]
theorem test_step_cStrReg :
    runs (.compact 0x5088#16) 0#32 [(0#4, 0xDEADBEEF#32), (1#4, 0x00010000#32), (2#4, 0x00000004#32)] [] 0#32 0x00008002#32 [] [(0x10004, 0xDEADBEEF#32)] = true := by decide

-- line 534: STRH r0, [r1, r2]
theorem test_step_cStrhReg :
    runs (.compact 0x5288#16) 0#32 [(0#4, 0xDEADBEEF#32), (1#4, 0x00010000#32), (2#4, 0x00000002#32)] [] 0#32 0x00008002#32 [] [(0x10000, 0xBEEF0000#32)] = true := by decide

-- line 535: STRB r0, [r1, r2]
theorem test_step_cStrbReg :
    runs (.compact 0x5488#16) 0#32 [(0#4, 0xDEADBEEF#32), (1#4, 0x00010000#32), (2#4, 0x00000003#32)] [] 0#32 0x00008002#32 [] [(0x10000, 0xEF000000#32)] = true := by decide

-- line 536: LDRSB r0, [r1, r2]
theorem test_step_cLdrsbReg :
    runs (.compact 0x5688#16) 0#32 [(1#4, 0x00010000#32), (2#4, 0x00000001#32)] [(0x10000, 0x0000FF00#32)] 0#32 0x00008002#32 [(0#4, 0xFFFFFFFF#32)] [] = true := by decide

-- line 537: LDR r0, [r1, r2]
theorem test_step_cLdrReg :
    runs (.compact 0x5888#16) 0#32 [(1#4, 0x00010000#32), (2#4, 0x00000008#32)] [(0x10008, 0x0BADF00D#32)] 0#32 0x00008002#32 [(0#4, 0x0BADF00D#32)] [] = true := by decide

-- line 538: LDRH r0, [r1, r2]
theorem test_step_cLdrhReg :
    runs (.compact 0x5A88#16) 0#32 [(1#4, 0x00010000#32), (2#4, 0x00000002#32)] [(0x10000, 0xFFFF0000#32)] 0#32 0x00008002#32 [(0#4, 0x0000FFFF#32)] [] = true := by decide

-- line 539: LDRB r0, [r1, r2]
theorem test_step_cLdrbReg :
    runs (.compact 0x5C88#16) 0#32 [(1#4, 0x00010000#32), (2#4, 0x00000000#32)] [(0x10000, 0x000000FF#32)] 0#32 0x00008002#32 [(0#4, 0x000000FF#32)] [] = true := by decide

-- line 540: LDRSH r0, [r1, r2]
theorem test_step_cLdrshReg :
    runs (.compact 0x5E88#16) 0#32 [(1#4, 0x00010000#32), (2#4, 0x00000002#32)] [(0x10000, 0x80000000#32)] 0#32 0x00008002#32 [(0#4, 0xFFFF8000#32)] [] = true := by decide

-- line 542: STR r0, [r1, #4]
theorem test_step_cStrImm :
    runs (.compact 0x6048#16) 0#32 [(0#4, 0x01020304#32), (1#4, 0x00010000#32)] [] 0#32 0x00008002#32 [] [(0x10004, 0x01020304#32)] = true := by decide

-- line 543: LDR r0, [r1, #124]
theorem test_step_cLdrImm :
    runs (.compact 0x6FC8#16) 0#32 [(1#4, 0x00010000#32)] [(0x1007C, 0x0000007C#32)] 0#32 0x00008002#32 [(0#4, 0x0000007C#32)] [] = true := by decide

-- line 544: STRB r0, [r1, #1]
theorem test_step_cStrbImm :
    runs (.compact 0x7048#16) 0#32 [(0#4, 0x000001FF#32), (1#4, 0x00010000#32)] [] 0#32 0x00008002#32 [] [(0x10000, 0x0000FF00#32)] = true := by decide

-- line 545: LDRB r0, [r1, #31]
theorem test_step_cLdrbImm :
    runs (.compact 0x7FC8#16) 0#32 [(1#4, 0x00010000#32)] [(0x1001C, 0x9C000000#32)] 0#32 0x00008002#32 [(0#4, 0x0000009C#32)] [] = true := by decide

-- line 546: STRH r0, [r1, #2]
theorem test_step_cStrhImm :
    runs (.compact 0x8048#16) 0#32 [(0#4, 0x12345678#32), (1#4, 0x00010000#32)] [] 0#32 0x00008002#32 [] [(0x10000, 0x56780000#32)] = true := by decide

-- line 547: LDRH r0, [r1, #62]
theorem test_step_cLdrhImm :
    runs (.compact 0x8FC8#16) 0#32 [(1#4, 0x00010000#32)] [(0x1003C, 0xABCD0000#32)] 0#32 0x00008002#32 [(0#4, 0x0000ABCD#32)] [] = true := by decide

-- line 548: STR r0, [sp, #4]
theorem test_step_cStrSp :
    runs (.compact 0x9001#16) 0#32 [(0#4, 0x5555AAAA#32), (13#4, 0x0003FFF0#32)] [] 0#32 0x00008002#32 [] [(0x3FFF4, 0x5555AAAA#32)] = true := by decide

-- line 549: LDR r0, [sp, #4]
theorem test_step_cLdrSp :
    runs (.compact 0x9801#16) 0#32 [(13#4, 0x0003FFF0#32)] [(0x3FFF4, 0x0000600D#32)] 0#32 0x00008002#32 [(0#4, 0x0000600D#32)] [] = true := by decide

-- line 552: ADD r0, sp, #8
theorem test_step_cAddSp :
    runs (.compact 0xA802#16) 0#32 [(13#4, 0x0003FFF0#32)] [] 0#32 0x00008002#32 [(0#4, 0x0003FFF8#32)] [] = true := by decide

-- line 573: ADD sp, #8
theorem test_step_cAddSpImm :
    runs (.compact 0xB002#16) 0#32 [(13#4, 0x0003FFF0#32)] [] 0#32 0x00008002#32 [(13#4, 0x0003FFF8#32)] [] = true := by decide

-- line 574: SUB sp, #8
theorem test_step_cSubSpImm :
    runs (.compact 0xB082#16) 0#32 [] [] 0#32 0x00008002#32 [(13#4, 0x0003FFF8#32)] [] = true := by decide

-- line 576: SXTH r0, r1
theorem test_step_cSxth :
    runs (.compact 0xB208#16) 0#32 [(1#4, 0x12348000#32)] [] 0#32 0x00008002#32 [(0#4, 0xFFFF8000#32)] [] = true := by decide

-- line 577: SXTB r0, r1
theorem test_step_cSxtb :
    runs (.compact 0xB248#16) 0#32 [(1#4, 0x12345680#32)] [] 0#32 0x00008002#32 [(0#4, 0xFFFFFF80#32)] [] = true := by decide

-- line 578: UXTH r0, r1
theorem test_step_cUxth :
    runs (.compact 0xB288#16) 0#32 [(1#4, 0x12348000#32)] [] 0#32 0x00008002#32 [(0#4, 0x00008000#32)] [] = true := by decide

-- line 579: UXTB r0, r1
theorem test_step_cUxtb :
    runs (.compact 0xB2C8#16) 0xF0000000#32 [(1#4, 0x12345680#32)] [] 0xF0000000#32 0x00008002#32 [(0#4, 0x00000080#32)] [] = true := by decide

-- line 554: PUSH {r0-r7}
theorem test_step_cPush :
    runs (.compact 0xB4FF#16) 0#32 [(0#4, 0x00000001#32), (1#4, 0x00000002#32), (2#4, 0x00000003#32), (3#4, 0x00000004#32), (4#4, 0x00000005#32), (5#4, 0x00000006#32), (6#4, 0x00000007#32), (7#4, 0x00000008#32)] [] 0#32 0x00008002#32 [(13#4, 0x0003FFE0#32)] [(0x3FFE0, 0x00000001#32), (0x3FFE4, 0x00000002#32), (0x3FFE8, 0x00000003#32), (0x3FFEC, 0x00000004#32), (0x3FFF0, 0x00000005#32), (0x3FFF4, 0x00000006#32), (0x3FFF8, 0x00000007#32), (0x3FFFC, 0x00000008#32)] = true := by decide

-- line 558: POP {r4, pc}
theorem test_step_cPop :
    runs (.compact 0xBD10#16) 0#32 [(13#4, 0x0003FFF8#32)] [(0x3FFF8, 0x00000044#32), (0x3FFFC, 0x00008041#32)] 0#32 0x00008040#32 [(4#4, 0x00000044#32), (13#4, 0x00040000#32)] [] = true := by decide

-- line 580: REV r0, r1
theorem test_step_cRev :
    runs (.compact 0xBA08#16) 0#32 [(1#4, 0x11223344#32)] [] 0#32 0x00008002#32 [(0#4, 0x44332211#32)] [] = true := by decide

-- line 581: REV16 r0, r1
theorem test_step_cRev16 :
    runs (.compact 0xBA48#16) 0#32 [(1#4, 0x11223344#32)] [] 0#32 0x00008002#32 [(0#4, 0x22114433#32)] [] = true := by decide

-- line 582: REVSH r0, r1
theorem test_step_cRevsh :
    runs (.compact 0xBAC8#16) 0#32 [(1#4, 0x11223380#32)] [] 0#32 0x00008002#32 [(0#4, 0xFFFF8033#32)] [] = true := by decide

-- line 564: STMIA r1!, {r0, r2, r3}
theorem test_step_cStmia :
    runs (.compact 0xC10D#16) 0#32 [(0#4, 0x0000000A#32), (1#4, 0x00010000#32), (2#4, 0x0000000B#32), (3#4, 0x0000000C#32)] [] 0#32 0x00008002#32 [(1#4, 0x0001000C#32)] [(0x10000, 0x0000000A#32), (0x10004, 0x0000000B#32), (0x10008, 0x0000000C#32)] = true := by decide

-- line 563: LDMIA r0!, {r1, r2, r3}
theorem test_step_cLdmia :
    runs (.compact 0xC80E#16) 0#32 [(0#4, 0x00010000#32)] [(0x10000, 0x00000001#32), (0x10004, 0x00000002#32), (0x10008, 0x00000003#32)] 0#32 0x00008002#32 [(0#4, 0x0001000C#32), (1#4, 0x00000001#32), (2#4, 0x00000002#32), (3#4, 0x00000003#32)] [] = true := by decide

-- line 590: BEQ . (offset -2)
theorem test_step_cBcond :
    runs (.compact 0xD0FE#16) 0x40000000#32 [] [] 0x40000000#32 0x00008000#32 [] [] = true := by decide

-- line 597: B +4
theorem test_step_cB : runs (.compact 0xE002#16) 0#32 [] [] 0#32 0x00008008#32 [] [] = true := by decide

-- line 600: BL prefix, high part 0
theorem test_step_cBlPrefix :
    runs (.compact 0xF000#16) 0#32 [(14#4, 0x00001234#32)] [] 0#32 0x00008002#32 [(14#4, 0x00008004#32)] [] = true := by decide

-- line 604: BL suffix alone
theorem test_step_cBlSuffix :
    runs (.compact 0xF800#16) 0#32 [(14#4, 0x00008041#32)] [] 0#32 0x00008041#32 [(14#4, 0x00008003#32)] [] = true := by decide
/-! ### Stops, mode switches and traps -/

-- lines 280, 281, 289: alignment before the segment, the unmapped hole, an offset sum that wraps
theorem test_fault_alignment_first : faults (.wide 0xE5910000#32) [(1#4, 0x7FFE#32)] [] (.alignmentFault 0x7FFE#32) = true := by
  decide

theorem test_fault_segment : faults (.wide 0xE5910000#32) [(1#4, 0x7FFC#32)] [] (.segmentFault 0x7FFC#32) = true := by decide

theorem test_fault_wrapped_address :
    faults (.wide 0xE5910008#32) [(1#4, 0xFFFFFFFC#32)] [] (.segmentFault 0x4#32) = true := by decide

-- lines 343, 344, 357, 381: S = 1 or a compare with Rd = 15, the saved status word, a multiply the design lacks
theorem test_fault_movs_pc : faults (.wide 0xE1B0F00E#32) [(14#4, 0x8040#32)] []
    (.unimplementedInstruction 0x8000#32 0xE1B0F00E#32) = true := by decide

theorem test_fault_compare_pc :
    faults (.wide 0xE350F000#32) [] [] (.unimplementedInstruction 0x8000#32 0xE350F000#32) = true := by decide

theorem test_fault_saved_status :
    faults (.wide 0xE14F0000#32) [] [] (.unimplementedInstruction 0x8000#32 0xE14F0000#32) = true := by decide

theorem test_fault_mla :
    faults (.wide 0xE0203291#32) [] [] (.unimplementedInstruction 0x8000#32 0xE0203291#32) = true := by decide

-- lines 374, 461, 525, 583, 596: a strict field, cond = 1111, a strict compact field, the two undefined compact rows
theorem test_fault_strict_field :
    faults (.wide 0xE16F0011#32) [] [] (.undefinedInstruction 0x8000#32 0xE16F0011#32) = true := by decide

theorem test_fault_condition_1111 :
    faults (.wide 0xFA000000#32) [] [] (.undefinedInstruction 0x8000#32 0xFA000000#32) = true := by decide

theorem test_fault_compact_strict :
    faults (.compact 0x4701#16) [] [] (.undefinedInstruction 0x8000#32 0x4701#32) = true := by decide

theorem test_fault_unallocated_reversal :
    faults (.compact 0xBA88#16) [] [] (.undefinedInstruction 0x8000#32 0xBA88#32) = true := by decide

theorem test_fault_branch_1110 :
    faults (.compact 0xDE00#16) [] [] (.undefinedInstruction 0x8000#32 0xDE00#32) = true := by decide

-- lines 349, 358, 368, 380, 433, 434, 435, 524: refused register combinations
theorem test_refused : refuses (.wide 0xE081021F#32) [] = true ∧ refuses (.wide 0xE10FF000#32) [] = true ∧
    refuses (.wide 0xE12FFF3F#32) [] = true ∧ refuses (.wide 0xE000029F#32) [] = true ∧
    refuses (.wide 0xE4911004#32) [(1#4, 0x10000#32)] = true ∧ refuses (.wide 0xE49F0004#32) [] = true ∧
    refuses (.wide 0xE5D1F000#32) [(1#4, 0x10000#32)] = true ∧ refuses (.compact 0x47F8#16) [] = true := by decide

-- lines 636, 639: S = 1 with Rd = 15 is not refused, nor is the missing immediate LDRSH
theorem test_not_refused :
    faults (.wide 0xE1B0F211#32) [] [] (.unimplementedInstruction 0x8000#32 0xE1B0F211#32) = true ∧
    faults (.wide 0xE0DFF0F0#32) [] [] (.unimplementedInstruction 0x8000#32 0xE0DFF0F0#32) = true := by decide

/-- A design that supports both directions of the mode switch. -/
def bidirectional (s : State) : State := { s with params := { s.params with bidirSwitch := true } }

/-- The mode, the program counter, the link register and the stack pointer after one step. -/
def switched (s : State) : Option (Mode × Word × Word × Word) :=
  match step s with
  | .next t => some (t.mode, t.pc, t.reg lrReg, t.reg spReg)
  | _ => none

-- lines 250, 522, 258, 367: compact to wide, and wide to compact where the design has it
theorem test_switch_cBx : switched (begins (.compact 0x4700#16) 0#32 [(0#4, 0x8080#32)] []) =
    some (.wide, 0x8080#32, 0#32, 0x40000#32) := by decide

theorem test_switch_cBlxReg : switched (begins (.compact 0x4798#16) 0#32 [(3#4, 0x8040#32)] []) =
    some (.wide, 0x8040#32, 0x8003#32, 0x40000#32) := by decide

theorem test_switch_bx : switched (bidirectional (begins (.wide 0xE12FFF10#32) 0#32 [(0#4, 0x8081#32)] [])) =
    some (.compact, 0x8080#32, 0#32, 0x40000#32) := by decide

theorem test_switch_blxReg : switched (bidirectional (begins (.wide 0xE12FFF33#32) 0#32 [(3#4, 0x8041#32)] [])) =
    some (.compact, 0x8040#32, 0x8004#32, 0x40000#32) := by decide

-- lines 257, 366: the baseline lacks the wide to compact direction
theorem test_fault_switch : faults (.wide 0xE12FFF10#32) [(0#4, 0x8081#32)] []
      (.modeSwitchUnsupported 0x8000#32 0xE12FFF10#32 0x8081#32) = true ∧
    faults (.wide 0xE12FFF33#32) [(3#4, 0x8041#32)] []
      (.modeSwitchUnsupported 0x8000#32 0xE12FFF33#32 0x8041#32) = true := by decide

-- lines 559, 560: POP of an even program counter
theorem test_switch_cPop :
    switched (bidirectional (begins (.compact 0xBD10#16) 0#32 [(13#4, 0x3FFF8#32)] [(0x3FFF8, 0x44#32), (0x3FFFC, 0x8040#32)])) =
      some (.wide, 0x8040#32, 0#32, 0x40000#32) := by decide

/-- The registers r0, r4 and sp and one word of memory in the state a faulting step leaves. -/
def leaves (s : State) (a : Nat) : Option (Word × Word × Word × Word) :=
  match step s with
  | .fault f => some ((faultFinal f).reg 0#4, (faultFinal f).reg 4#4, (faultFinal f).reg spReg,
      memValue (faultFinal f).mem a .word)
  | _ => none

theorem test_partial_cPop :
    leaves (begins (.compact 0xBD10#16) 0#32 [(13#4, 0x3FFF8#32)] [(0x3FFF8, 0x44#32), (0x3FFFC, 0x8040#32)]) 0x3FFFC =
      some (0#32, 0x44#32, 0x3FFF8#32, 0x8040#32) := by decide

-- line 567: STMIA that runs out of the data segment has stored its first word
theorem test_partial_cStmia :
    leaves (begins (.compact 0xC103#16) 0#32 [(0#4, 10#32), (1#4, 0x100FC#32)] []) 0x100FC =
      some (10#32, 0#32, 0x40000#32, 10#32) := by decide

/-- The run state, r0 and the program counter after one step with one reply of the shim. -/
def trapped (x : Code) (r : ShimReply) : Option (RunState × Word × Word) :=
  match step ((begins x 0#32 [(0#4, 0x18#32)] []).setShim [r] 0) with
  | .next t => some (t.run, t.reg 0#4, t.pc)
  | _ => none

-- lines 456, 606, 607: a result, the result -1, and a call that ends the run
theorem test_trap_wide : trapped (.wide 0xEF123456#32) { accesses := [], result := 0x1234#32, ends := false } =
    some (.running, 0x1234#32, 0x8004#32) := by decide

theorem test_trap_compact : trapped (.compact 0xDFAB#16) { accesses := [], result := 0xFFFFFFFF#32, ends := false } =
    some (.running, 0xFFFFFFFF#32, 0x8002#32) := by decide

theorem test_trap_ends : trapped (.compact 0xDFAB#16) { accesses := [], result := 0#32, ends := true } =
    some (.terminated, 0#32, 0x8002#32) := by decide

/-- What `step` does with the instruction `withFetchWord` places after reset: it runs that instruction. -/
theorem test_withFetchWord_wide : (match step (State.reset.withFetchWord 32 0xE3A00005) with
    | .next t => decide (t.reg 0#4 = 5#32 ∧ t.pc = 4#32)
    | _ => false) = true := by decide

theorem test_withFetchWord_compact : (match step (State.reset.withFetchWord 16 0x2005) with
    | .next t => decide (t.reg 0#4 = 5#32 ∧ t.pc = 2#32)
    | _ => false) = true := by decide

/-! ## States and operands that meet the hypotheses of the statements -/

/-- A wide state about to run MOV r0, #5: an even and an odd address in code, a data address, small numbers. -/
def wideState : State := begins (.wide 0xE3A00005#32) 0#32
  [(1#4, 0x10000#32), (2#4, 4#32), (3#4, 0x8041#32), (4#4, 0x8040#32), (5#4, 0x100FE#32), (6#4, 1#32)] []

/-- A compact state about to run MOV r0, #5, with the same registers. -/
def compactState : State := begins (.compact 0x2005#16) 0#32
  [(1#4, 0x10000#32), (2#4, 4#32), (3#4, 0x8041#32), (4#4, 0x8040#32), (5#4, 0x100FE#32), (6#4, 1#32)] []

/-- The compact state with its stack pointer somewhere else. -/
def stackState (sp : Word) : State := compactState.setReg spReg sp

/-- The wide state with its program counter somewhere else. -/
def wideAt (a : Word) : State := wideState.setPc a

/-- The compact state with its program counter somewhere else. -/
def compactAt (a : Word) : State := compactState.setPc a

theorem test_witness_DecodeEncode : (Instr.ldrImm .al false true false 1#4 2#4 0xFFF#12).wellFormed = true ∧
    (Instr.swiOther .al 0x123457#24).wellFormed = true ∧ (Instr.cSwiOther 0xAC#8).wellFormed = true ∧
    (Instr.cBcond .le 0#8).wellFormed = true := by decide

theorem test_witness_DecodedIsEncoded : decode (.wide 0xEF123457#32) = .ok (.swiOther .al 0x123457#24) ∧
    decode (.compact 0xDFAA#16) = .ok (.cSwiOther 0xAA#8) := ⟨rfl, rfl⟩

theorem test_witness_StepRunsDecoded :
    (wideState.run = .running ∧ fetch wideState = .ok 0xE3A00005#32 ∧
      decode (codeOfFetched .wide 0xE3A00005#32) = .ok (.movImm .al false 0#4 0#4 0#4 5#8) ∧
      (Instr.movImm .al false 0#4 0#4 0#4 5#8).wellFormed = true) ∧
    (compactState.run = .running ∧ fetch compactState = .ok 0x2005#32 ∧
      decode (codeOfFetched .compact 0x2005#32) = .ok (.cMovImm8 0#3 5#8) ∧
      (Instr.cMovImm8 0#3 5#8).wellFormed = true) := ⟨⟨rfl, rfl, rfl, rfl⟩, ⟨rfl, rfl, rfl, rfl⟩⟩

theorem test_witness_FetchChecks :
    ((wideAt 0x8002#32).run = .running ∧ (wideAt 0x8002#32).pc.toNat % Width.bytes .word ≠ 0) ∧
    (compactAt 0x8001#32).pc.toNat % Width.bytes .half ≠ 0 ∧
    ((wideAt 0x8100#32).pc.toNat % Width.bytes .word = 0 ∧
      ¬ ((wideAt 0x8100#32).segs.code.base ≤ (wideAt 0x8100#32).pc.toNat ∧
        (wideAt 0x8100#32).pc.toNat + Width.bytes .word ≤
          (wideAt 0x8100#32).segs.code.base + (wideAt 0x8100#32).segs.code.size)) ∧
    ((wideAt 0x80FC#32).pc.toNat % Width.bytes .word = 0 ∧ (wideAt 0x80FC#32).segs.code.base ≤ (wideAt 0x80FC#32).pc.toNat ∧
      (wideAt 0x80FC#32).pc.toNat + Width.bytes .word ≤
        (wideAt 0x80FC#32).segs.code.base + (wideAt 0x80FC#32).segs.code.size) ∧
    ((compactAt 0x80FE#32).pc.toNat % Width.bytes .half = 0 ∧
      (compactAt 0x80FE#32).segs.code.base ≤ (compactAt 0x80FE#32).pc.toNat ∧
      (compactAt 0x80FE#32).pc.toNat + Width.bytes .half ≤
        (compactAt 0x80FE#32).segs.code.base + (compactAt 0x80FE#32).segs.code.size) := by decide

theorem test_witness_UndecodedWord :
    (fetch (begins (.compact 0xB100#16) 0#32 [] []) = .ok 0xB100#32 ∧
      decode (codeOfFetched .compact 0xB100#32) = .error .noRow) ∧
    (fetch (begins (.wide 0xF57FF000#32) 0#32 [] []) = .ok 0xF57FF000#32 ∧
      decode (codeOfFetched .wide 0xF57FF000#32) = .error .conditionReserved ∧ field 0xF57FF000#32 28 4 = 0xF#4) ∧
    (fetch (begins (.wide 0xE1000010#32) 0#32 [] []) = .ok 0xE1000010#32 ∧
      decode (codeOfFetched .wide 0xE1000010#32) = .error .noRow ∧ field 0xE1000010#32 28 4 = Cond.toBits .al ∧
      condPassed .al (begins (.wide 0xE1000010#32) 0#32 [] []) = true) ∧
    (fetch (begins (.wide 0x01000010#32) 0#32 [] []) = .ok 0x01000010#32 ∧
      decode (codeOfFetched .wide 0x01000010#32) = .error .noRow ∧ field 0x01000010#32 28 4 = Cond.toBits .eq ∧
      condPassed .eq (begins (.wide 0x01000010#32) 0#32 [] []) = false) :=
  ⟨⟨rfl, rfl⟩, ⟨rfl, rfl, rfl⟩, ⟨rfl, rfl, rfl, rfl⟩, ⟨rfl, rfl, rfl, rfl⟩⟩

theorem test_witness_StoppedHasNoMove : (wideState.setRun .terminated).run ≠ .running ∧
    (wideState.setRun (.faulted (.segmentFault 0#32))).run ≠ .running := by decide

/-- A table whose data segment ends in the middle of a word. -/
def oddTable : State := wideState.setSegs { testSegments with data := { base := 0x10000, size := 0x102 } }

theorem test_witness_AccessChecks : (0x10001#32).toNat % Width.bytes .half ≠ 0 ∧
    (0x10002#32).toNat % Width.bytes .word ≠ 0 ∧ resolve wideState 0x10100 = none ∧
    (resolve oddTable 0x10100 = some .data ∧ 0x10000 + 0x102 < 0x10100 + Width.bytes .word) ∧
    (resolve oddTable 0x10100 = some .data ∧ 0x10100 + Width.bytes .half ≤ 0x10000 + 0x102) ∧
    (resolve wideState 0x100FC = some .data ∧ 0x100FC + Width.bytes .word ≤ 0x10000 + 0x100) := by decide

theorem test_witness_ResolveExclusive : tableWf wideState.segs wideState.params = true ∧
    resolve wideState 0x3EFFF = some .heap ∧ resolve wideState 0x3F000 = some .stack ∧
    resolve wideState 0x3FFFF = some .stack ∧ resolve wideState 0x40000 = none ∧
    resolve wideState 0x20100 = some .heap ∧ resolve wideState 0x200FF = some .bss := by decide

theorem test_witness_WriteThenRead : (∃ t, memWrite wideState 0x3FFFC#32 0x80000001#32 .word = .ok t) ∧
    (∃ t, memWrite wideState 0x100FE#32 0x18001#32 .half = .ok t) ∧
    (∃ t, memWrite wideState 0x100FF#32 0x180#32 .byte = .ok t) := ⟨⟨_, rfl⟩, ⟨_, rfl⟩, ⟨_, rfl⟩⟩

theorem test_witness_StoreReachesFetch :
    (∃ t, memWrite (wideAt 0x80FC#32) 0x80FC#32 0xE3A00001#32 .word = .ok t) ∧
    resolve (wideAt 0x80FC#32) 0x80FC = some .code ∧
    (∃ t, memWrite (compactAt 0x80FE#32) 0x80FE#32 0x12001#32 .half = .ok t) ∧
    resolve (compactAt 0x80FE#32) 0x80FE = some .code := ⟨⟨_, rfl⟩, by decide, ⟨_, rfl⟩, by decide⟩

theorem test_witness_CompareAnswersConditions : condPassed .al wideState = true ∧ (14#4 : Reg) ≠ pcReg ∧
    (0#4 : Reg) ≠ pcReg := by decide

theorem test_witness_ShiftTable : (1#5 : BitVec 5) ≠ 0#5 ∧ (31#5 : BitVec 5) ≠ 0#5 := by decide

theorem test_witness_WideLogical : condPassed .al wideState = true ∧ (14#4 : Reg) ≠ pcReg := by decide

theorem test_witness_WideMoves : condPassed .al wideState = true ∧ (14#4 : Reg) ≠ pcReg := by decide

theorem test_witness_WideAddSubtract : condPassed .al wideState = true ∧ (14#4 : Reg) ≠ pcReg := by decide

theorem test_witness_WideCompares : condPassed .ne wideState = true ∧ (14#4 : Reg) ≠ pcReg := by decide

theorem test_witness_WideDataProcessingBranches : condPassed .ne wideState = true := by decide

theorem test_witness_WideStatusCountMultiply : condPassed .al wideState = true ∧ wideState.reg 7#4 = 0#32 ∧
    (2 ^ 0 ≤ (wideState.reg 6#4).toNat ∧ (wideState.reg 6#4).toNat < 2 ^ (0 + 1)) ∧
    (2 ^ 31 ≤ ((wideState.setReg 6#4 0x80000000#32).reg 6#4).toNat ∧
      ((wideState.setReg 6#4 0x80000000#32).reg 6#4).toNat < 2 ^ (31 + 1)) := by decide

theorem test_witness_WideExchange : condPassed .al wideState = true ∧ bit (readWide wideState 4#4) 0 = false ∧
    (bit (readWide wideState 3#4) 0 = true ∧ wideState.params.bidirSwitch = false) ∧
    (bit (readWide (bidirectional wideState) 3#4) 0 = true ∧ (bidirectional wideState).params.bidirSwitch = true) ∧
    bit (wideState.reg 4#4) 0 = false ∧ bit (wideState.reg 3#4) 0 = true ∧ (3#4 : Reg) ≠ pcReg := by decide

theorem test_witness_WideBranches : condPassed .al wideState = true ∧
    (advance wideState 0xEA000000#32).iaddr.toNat % 4 = 0 := by decide

theorem test_witness_WideWordByteLoads : condPassed .al wideState = true ∧ (0#4 : Reg) ≠ pcReg ∧
    (refusedCombination (.ldrImm .al true true true 1#4 0#4 0xFC#12) = false ∧
      accessFault wideState (lsAddr wideState true true 1#4 (offsetImm12 0xFC#12)) .word = none ∧
      accessFault wideState (lsAddr wideState true true 1#4 (offsetImm12 0x100#12)) .word = some (.segmentFault 0x10100#32)) ∧
    (refusedCombination (.ldrReg .al false false false 1#4 0#4 0#5 .lsl 2#4) = false ∧
      accessFault wideState (lsAddr wideState false false 1#4 (offsetScaled wideState 0#5 .lsl 2#4)) .word = none ∧
      accessFault wideState (lsAddr wideState false false 5#4 (offsetScaled wideState 0#5 .lsl 2#4)) .word =
        some (.alignmentFault 0x100FE#32)) ∧
    (refusedCombination (.ldrtImm .al true 1#4 0#4 4#12) = false ∧
      refusedCombination (.ldrtReg .al true 1#4 0#4 0#5 .lsl 2#4) = false) ∧
    (refusedCombination (.ldrbImm .al true true false 5#4 0#4 1#12) = false ∧
      accessFault wideState (lsAddr wideState true true 5#4 (offsetImm12 1#12)) .byte = none ∧
      accessFault wideState (lsAddr wideState true true 5#4 (offsetImm12 2#12)) .byte = some (.segmentFault 0x10100#32)) ∧
    (refusedCombination (.ldrbReg .al true true false 1#4 0#4 0#5 .lsl 2#4) = false ∧
      refusedCombination (.ldrbtImm .al true 1#4 0#4 4#12) = false ∧
      refusedCombination (.ldrbtReg .al true 1#4 0#4 0#5 .lsl 2#4) = false ∧
      accessFault wideState (lsAddr wideState true true 1#4 (offsetScaled wideState 0#5 .lsl 2#4)) .byte = none) := by
  decide

theorem test_witness_WideExtraLoads : condPassed .al wideState = true ∧ (0#4 : Reg) ≠ pcReg ∧
    refusedCombination (.ldrhImm .al true true true 1#4 0#4 0xF#4 0xE#4) = false ∧
    refusedCombination (.ldrhReg .al false true false 1#4 0#4 2#4) = false ∧
    refusedCombination (.ldrsbImm .al true true false 1#4 0#4 0xF#4 0xF#4) = false ∧
    refusedCombination (.ldrsbReg .al true true false 1#4 0#4 2#4) = false ∧
    refusedCombination (.ldrshReg .al true true false 1#4 0#4 2#4) = false ∧
    accessFault wideState (lsAddr wideState true true 1#4 (offsetSplit 0xF#4 0xE#4)) .half = none ∧
    accessFault wideState (lsAddr wideState true true 1#4 (offsetSplit 0xF#4 0xF#4)) .byte = none ∧
    accessFault wideState (lsAddr wideState true true 1#4 (offsetReg wideState 2#4)) .half = none ∧
    accessFault wideState (lsAddr wideState true true 1#4 (offsetReg wideState 2#4)) .byte = none ∧
    accessFault wideState (lsAddr wideState true true 1#4 (offsetSplit 0xF#4 0xF#4)) .half =
      some (.alignmentFault 0x100FF#32) ∧
    accessFault wideState (lsAddr wideState true true 1#4 (offsetReg wideState 6#4)) .half =
      some (.alignmentFault 0x10001#32) ∧
    accessFault wideState (lsAddr wideState true true 5#4 (offsetReg wideState 2#4)) .byte =
      some (.segmentFault 0x10102#32) := by decide

theorem test_witness_WideLoadToPc : condPassed .al wideState = true ∧
    (refusedCombination (.ldrImm .al true true false 1#4 pcReg 0xFC#12) = false ∧
      accessFault wideState (lsAddr wideState true true 1#4 (offsetImm12 0xFC#12)) .word = none) ∧
    (refusedCombination (.ldrReg .al true true false 1#4 pcReg 0#5 .lsl 2#4) = false ∧
      accessFault wideState (lsAddr wideState true true 1#4 (offsetScaled wideState 0#5 .lsl 2#4)) .word = none) ∧
    (refusedCombination (.ldrImm .al true true false 1#4 pcReg 0xFD#12) = false ∧
      accessFault wideState (lsAddr wideState true true 1#4 (offsetImm12 0xFD#12)) .word =
        some (.alignmentFault 0x100FD#32)) ∧
    (refusedCombination (.ldrReg .al true true false 1#4 pcReg 6#5 .lsl 2#4) = false ∧
      accessFault wideState (lsAddr wideState true true 1#4 (offsetScaled wideState 6#5 .lsl 2#4)) .word =
        some (.segmentFault 0x10100#32)) := by
  decide

theorem test_witness_WideStores : condPassed .al wideState = true ∧
    (refusedCombination (.strImm .al true true true 1#4 0#4 0xFC#12) = false ∧
      refusedCombination (.strImm .al true true false 1#4 pcReg 0#12) = false ∧
      accessFault wideState (lsAddr wideState true true 1#4 (offsetImm12 0xFC#12)) .word = none ∧
      accessFault wideState (lsAddr wideState true true 1#4 (offsetImm12 0x100#12)) .word = some (.segmentFault 0x10100#32)) ∧
    (refusedCombination (.strReg .al false true false 1#4 0#4 0#5 .lsl 2#4) = false ∧
      refusedCombination (.strtImm .al true 1#4 0#4 4#12) = false ∧
      refusedCombination (.strtReg .al true 1#4 0#4 0#5 .lsl 2#4) = false ∧
      accessFault wideState (lsAddr wideState false true 1#4 (offsetScaled wideState 0#5 .lsl 2#4)) .word = none ∧
      accessFault wideState (lsAddr wideState false true 5#4 (offsetImm12 4#12)) .word = some (.alignmentFault 0x100FE#32)) ∧
    (refusedCombination (.strbImm .al true true false 5#4 0#4 1#12) = false ∧
      refusedCombination (.strbReg .al true true false 1#4 0#4 0#5 .lsl 2#4) = false ∧
      refusedCombination (.strbtImm .al true 1#4 0#4 4#12) = false ∧
      refusedCombination (.strbtReg .al true 1#4 0#4 0#5 .lsl 2#4) = false ∧
      accessFault wideState (lsAddr wideState true true 5#4 (offsetImm12 1#12)) .byte = none ∧
      accessFault wideState (lsAddr wideState true true 5#4 (offsetImm12 2#12)) .byte = some (.segmentFault 0x10100#32)) ∧
    (refusedCombination (.strhImm .al true true false 1#4 0#4 0xF#4 0xE#4) = false ∧
      refusedCombination (.strhReg .al true true false 1#4 0#4 2#4) = false ∧
      accessFault wideState (lsAddr wideState true true 1#4 (offsetSplit 0xF#4 0xE#4)) .half = none ∧
      accessFault wideState (lsAddr wideState true true 1#4 (offsetReg wideState 2#4)) .half = none ∧
      accessFault wideState (lsAddr wideState true true 1#4 (offsetReg wideState 6#4)) .half =
        some (.alignmentFault 0x10001#32)) := by decide

theorem test_witness_FailedConditionDoesNothing : condOf (.mla .eq false 0#4 1#4 2#4 3#4) = some .eq ∧
    condPassed .eq wideState = false ∧ condOf (.cBcond .eq 0#8) = some .eq := by decide

theorem test_witness_RefusedExactly :
    (∃ r, exec (.mul .al false 15#4 1#4 2#4) wideState = .refused r) ∧
    conditionPasses (.mul .al false 15#4 1#4 2#4) wideState = true ∧
    refusedCombination (.mul .al false 15#4 1#4 2#4) = true := ⟨⟨_, rfl⟩, by decide, by decide⟩

theorem test_witness_UnimplementedExactly :
    (conditionPasses (.mla .al false 0#4 1#4 2#4 3#4) wideState = true ∧
      refusedCombination (.mla .al false 0#4 1#4 2#4 3#4) = false ∧
      lacksImplementation (.mla .al false 0#4 1#4 2#4 3#4) = true) ∧
    (refusedCombination (.movImm .al true 0#4 15#4 0#4 0#8) = false ∧
      lacksImplementation (.movImm .al true 0#4 15#4 0#4 0#8) = true) ∧
    (∃ a w t, exec (.cBkpt 0#8) compactState = .fault (.unimplementedInstruction a w t)) :=
  ⟨by decide, by decide, ⟨_, _, _, rfl⟩⟩

theorem test_witness_SwitchRequests :
    (∃ t, exec (.cBx 4#4) compactState = .next t ∧ t.mode ≠ compactState.mode) ∧
    (∃ t, exec (.bx .al 3#4) (bidirectional wideState) = .next t ∧ t.mode ≠ (bidirectional wideState).mode) ∧
    (∃ t, exec (.cPop true 0x07#8) (bidirectional (stackState 0x3FFF0#32)) = .next t ∧
      t.mode ≠ (bidirectional (stackState 0x3FFF0#32)).mode) ∧
    (∃ a w g t, exec (.bx .al 3#4) wideState = .fault (.modeSwitchUnsupported a w g t)) ∧
    (∃ a w g t, exec (.cPop true 0x07#8) (stackState 0x3FFF0#32) = .fault (.modeSwitchUnsupported a w g t)) :=
  ⟨⟨_, rfl, by decide⟩, ⟨_, rfl, by decide⟩, ⟨_, rfl, by decide⟩, ⟨_, _, _, _, rfl⟩, ⟨_, _, _, _, rfl⟩⟩

theorem test_witness_FaultIsPrecise : mayStopPartway (.cLdrReg 6#3 1#3 0#3) = false ∧
    (∃ f, exec (.cLdrReg 6#3 1#3 0#3) compactState = .fault f) := ⟨rfl, ⟨_, rfl⟩⟩

theorem test_witness_BaselineStaysWide : wideState.mode = .wide ∧ wideState.params.bidirSwitch = false ∧
    (∃ t, Reaches wideState t ∧ t.pc = 0x8004#32) :=
  ⟨rfl, rfl, ⟨_, .more .start rfl, by decide⟩⟩

theorem test_witness_StepKeepsInv : Inv wideState ∧ (∃ t, step wideState = .next t) := ⟨⟨by decide, by decide⟩, ⟨_, rfl⟩⟩

theorem test_witness_RunKeepsConfiguration : ∃ t, Reaches compactState t ∧ t.pc = 0x8002#32 :=
  ⟨_, .more .start rfl, by decide⟩

theorem test_witness_FrameRegisters :
    (∃ t, exec (.cPush true 0x81#8) (compactState.setReg spReg 0x3FFF0#32) = .next t) ∧
    (lrReg ≠ pcReg ∧ lrReg ∉ writtenRegs (.cPush true 0x81#8)) := ⟨⟨_, rfl⟩, by decide⟩

theorem test_witness_FramePc : (∃ t, exec (.addImm .al true 1#4 14#4 0#4 1#8) wideState = .next t) ∧
    writesPc (.addImm .al true 1#4 14#4 0#4 1#8) = false := ⟨⟨_, rfl⟩, rfl⟩

theorem test_witness_FrameFlags :
    ((∃ t, exec (.addImm .al false 1#4 0#4 0#4 1#8) wideState = .next t) ∧
      flagEffect (.addImm .al false 1#4 0#4 0#4 1#8) = .none) ∧
    ((∃ t, exec (.cMul 1#3 2#3) compactState = .next t) ∧ flagEffect (.cMul 1#3 2#3) = .nz) ∧
    ((∃ t, exec (.cRor 1#3 2#3) compactState = .next t) ∧ flagEffect (.cRor 1#3 2#3) = .nzc) :=
  ⟨⟨⟨_, rfl⟩, rfl⟩, ⟨⟨_, rfl⟩, rfl⟩, ⟨⟨_, rfl⟩, rfl⟩⟩

theorem test_witness_FrameMemory :
    (∃ t, exec (.cStrReg 2#3 1#3 0#3) compactState = .next t) ∧
    outside (storesTo (.cStrReg 2#3 1#3 0#3) compactState) 0x10003 ∧
    outside (storesTo (.cStrReg 2#3 1#3 0#3) compactState) 0x10008 := ⟨⟨_, rfl⟩, by unfold outside; decide, by unfold outside; decide⟩

theorem test_witness_FrameControl :
    ((∃ t, exec (.b .al 0#24) wideState = .next t) ∧ switchTarget (.b .al 0#24) = none ∧ isTrap (.b .al 0#24) = false) ∧
    ((∃ t, exec .cSwiTrap (compactState.setShim [{ accesses := [], result := 0#32, ends := true }] 0) = .next t) ∧
      isTrap .cSwiTrap = true) := ⟨⟨⟨_, rfl⟩, rfl, rfl⟩, ⟨⟨_, rfl⟩, rfl⟩⟩

theorem test_witness_CompactHighRegisters : (14#4 : Reg) ≠ pcReg := by decide

theorem test_witness_CompactExchange : bit (readCompact compactState 3#4) 0 = true ∧
    bit (readCompact compactState 4#4) 0 = false ∧ bit (compactState.reg 3#4) 0 = true ∧
    bit (compactState.reg 4#4) 0 = false ∧ (14#4 : Reg) ≠ pcReg ∧
    (∃ t, exec (.cBx 3#4) compactState = .next t) := ⟨by decide, by decide, by decide, by decide, by decide, ⟨_, rfl⟩⟩

theorem test_witness_CompactLoads :
    accessFault (advance compactState 0#32) (BitVec.ofNat 32 (((advance compactState 0#32).iaddr + 4#32).toNat / 4 * 4 + 4 * 62)) .word =
      none ∧
    accessFault (advance compactState 0#32) (BitVec.ofNat 32 (((advance compactState 0#32).iaddr + 4#32).toNat / 4 * 4 + 4 * 63)) .word =
      some (.segmentFault 0x8100#32) ∧
    (accessFault compactState (compactState.reg (lowReg 1#3) + compactState.reg (lowReg 2#3)) .word = none ∧
      accessFault compactState (compactState.reg (lowReg 1#3) + compactState.reg (lowReg 2#3)) .half = none ∧
      accessFault compactState (compactState.reg (lowReg 1#3) + compactState.reg (lowReg 6#3)) .byte = none ∧
      accessFault compactState (compactState.reg (lowReg 1#3) + compactState.reg (lowReg 6#3)) .half =
        some (.alignmentFault 0x10001#32) ∧
      accessFault compactState (compactState.reg (lowReg 5#3) + compactState.reg (lowReg 2#3)) .byte =
        some (.segmentFault 0x10102#32) ∧
      accessFault compactState (compactState.reg (lowReg 1#3) + compactState.reg (lowReg 6#3)) .word =
        some (.alignmentFault 0x10001#32)) ∧
    (accessFault compactState (compactState.reg (lowReg 1#3) + BitVec.ofNat 32 (4 * 31)) .word = none ∧
      accessFault compactState (compactState.reg (lowReg 5#3) + BitVec.ofNat 32 (1 * 1)) .byte = none ∧
      accessFault compactState (compactState.reg (lowReg 5#3) + BitVec.ofNat 32 (1 * 2)) .byte =
        some (.segmentFault 0x10100#32) ∧
      accessFault compactState (compactState.reg (lowReg 5#3) + BitVec.ofNat 32 (2 * 0)) .half = none ∧
      accessFault compactState (compactState.reg (lowReg 5#3) + BitVec.ofNat 32 (2 * 1)) .half =
        some (.segmentFault 0x10100#32) ∧
      accessFault compactState (compactState.reg (lowReg 5#3) + BitVec.ofNat 32 (4 * 0)) .word =
        some (.alignmentFault 0x100FE#32)) ∧
    (accessFault (stackState 0x3FFF0#32) ((stackState 0x3FFF0#32).reg spReg + BitVec.ofNat 32 (4 * 3)) .word = none ∧
      accessFault (stackState 0x3FFF0#32) ((stackState 0x3FFF0#32).reg spReg + BitVec.ofNat 32 (4 * 4)) .word =
        some (.segmentFault 0x40000#32)) := by decide

/-- The stores have the addresses and the checks of the loads. -/
theorem test_witness_CompactStores :
    (accessFault compactState (compactState.reg (lowReg 1#3) + compactState.reg (lowReg 2#3)) .word = none ∧
      accessFault compactState (compactState.reg (lowReg 1#3) + compactState.reg (lowReg 2#3)) .half = none ∧
      accessFault compactState (compactState.reg (lowReg 1#3) + compactState.reg (lowReg 6#3)) .byte = none ∧
      accessFault compactState (compactState.reg (lowReg 1#3) + compactState.reg (lowReg 6#3)) .word =
        some (.alignmentFault 0x10001#32) ∧
      accessFault compactState (compactState.reg (lowReg 1#3) + compactState.reg (lowReg 6#3)) .half =
        some (.alignmentFault 0x10001#32) ∧
      accessFault compactState (compactState.reg (lowReg 5#3) + compactState.reg (lowReg 2#3)) .byte =
        some (.segmentFault 0x10102#32)) ∧
    (accessFault compactState (compactState.reg (lowReg 1#3) + BitVec.ofNat 32 (4 * 31)) .word = none ∧
      accessFault compactState (compactState.reg (lowReg 5#3) + BitVec.ofNat 32 (4 * 0)) .word =
        some (.alignmentFault 0x100FE#32) ∧
      accessFault compactState (compactState.reg (lowReg 5#3) + BitVec.ofNat 32 (2 * 0)) .half = none ∧
      accessFault compactState (compactState.reg (lowReg 5#3) + BitVec.ofNat 32 (2 * 1)) .half =
        some (.segmentFault 0x10100#32) ∧
      accessFault compactState (compactState.reg (lowReg 5#3) + BitVec.ofNat 32 (1 * 1)) .byte = none ∧
      accessFault compactState (compactState.reg (lowReg 5#3) + BitVec.ofNat 32 (1 * 2)) .byte =
        some (.segmentFault 0x10100#32)) ∧
    (accessFault (stackState 0x3FFF0#32) ((stackState 0x3FFF0#32).reg spReg + BitVec.ofNat 32 (4 * 3)) .word = none ∧
      accessFault (stackState 0x3FFF0#32) ((stackState 0x3FFF0#32).reg spReg + BitVec.ofNat 32 (4 * 4)) .word =
        some (.segmentFault 0x40000#32)) := by decide

theorem test_witness_MultipleStores :
    (∀ j, j < (pushRegs true 0xFF#8).length → accessFault (stackState 0x40000#32)
      (pushStart (stackState 0x40000#32) true 0xFF#8 + BitVec.ofNat 32 (4 * j)) .word = none) ∧
    (∀ j, j < (listRegs 0xFF#8).length →
      accessFault compactState (compactState.reg (lowReg 1#3) + BitVec.ofNat 32 (4 * j)) .word = none) := by decide

theorem test_witness_MultipleLoads :
    (∀ j, j < (listRegs 0xFF#8).length →
      accessFault compactState (compactState.reg (lowReg 1#3) + BitVec.ofNat 32 (4 * j)) .word = none) ∧
    (∀ j, j < (listRegs 0x07#8).length → accessFault (stackState 0x3FFF0#32)
      ((stackState 0x3FFF0#32).reg spReg + BitVec.ofNat 32 (4 * j)) .word = none) ∧
    accessFault (stackState 0x3FFF0#32) 0x3FFFC#32 .word = none ∧
    bit (memValue (withWords [(0x3FFFC, 0x8041#32)] (stackState 0x3FFF0#32)).mem 0x3FFFC .word) 0 = true ∧
    bit (memValue (stackState 0x3FFF0#32).mem 0x3FFFC .word) 0 = false ∧
    (stackState 0x3FFF0#32).params.bidirSwitch = false ∧
    (bidirectional (stackState 0x3FFF0#32)).params.bidirSwitch = true := by decide

theorem test_witness_PushPopRoundTrip : ∃ t, exec (.cPush false 0xFF#8) (stackState 0x40000#32) = .next t ∧
    (t.setReg 0#4 7#32).mem = t.mem ∧ (t.setReg 0#4 7#32).reg spReg = t.reg spReg ∧
    (t.setReg 0#4 7#32).segs = t.segs ∧ (t.setReg 0#4 7#32).params = t.params :=
  ⟨_, rfl, by decide, by decide, by decide, by decide⟩

theorem test_witness_PartialTransfers :
    (∃ f, exec (.cPush true 0xFF#8) (stackState 0x10120#32) = .fault f) ∧
    (∃ f, exec (.cStmia 5#3 0x03#8) (compactState.setReg 5#4 0x100FC#32) = .fault f) ∧
    (∃ f, exec (.cLdmia 5#3 0x03#8) (compactState.setReg 5#4 0x100FC#32) = .fault f) ∧
    (∃ f, exec (.cPop false 0x03#8) (stackState 0x3FFFC#32) = .fault f) ∧
    (∃ f, exec (.cPop true 0x03#8) (stackState 0x3FFFC#32) = .fault f ∧ faultKind f = some (.segmentFault 0x40000#32)) ∧
    (∃ f, exec (.cPop true 0x01#8) (stackState 0x3FFFC#32) = .fault f ∧ faultKind f = some (.segmentFault 0x40000#32)) ∧
    (∃ f, exec (.cPop true 0x07#8) (stackState 0x3FFF0#32) = .fault f ∧
      faultKind f = some (.modeSwitchUnsupported (stackState 0x3FFF0#32).iaddr (stackState 0x3FFF0#32).instr 0#32)) :=
  ⟨⟨_, rfl⟩, ⟨_, rfl⟩, ⟨_, rfl⟩, ⟨_, rfl⟩, ⟨_, rfl, by decide⟩, ⟨_, rfl, by decide⟩, ⟨_, rfl, by decide⟩⟩

theorem test_witness_CompactBranches : condPassed .ne compactState = true ∧ condPassed .eq compactState = false := by
  decide

theorem test_witness_BranchWithLinkPair :
    ∃ u v, exec (.cBlPrefix 0x7FF#11) compactState = .next u ∧ u.reg lrReg = u.reg lrReg ∧
      exec (.cBlSuffix 0x7FE#11) u = .next v := ⟨_, _, rfl, rfl, rfl⟩

/-- A state whose next trap writes one word of the stack and then one word past it. -/
def failingShim : State :=
  compactState.setShim
    [{ accesses := [.write 0x3FFFC#32 .word 5#32, .write 0x40000#32 .word 6#32], result := 1#32, ends := false }] 0

theorem test_witness_Traps :
    (∃ r, (compactState.setShim [r] 0).shim = [r] ∧ shimReply (compactState.setShim [r] 0) = r ∧
      shimAllowed (compactState.setShim [r] 0) r.accesses = true ∧
      r.accesses = [.read 0x8000#32 .byte, .write 0x3FFFC#32 .word 5#32]) ∧
    compactState.shim = [] ∧
    ((shimReply failingShim).accesses =
        [.write 0x3FFFC#32 .word 5#32] ++ ShimAccess.write 0x40000#32 .word 6#32 :: [] ∧
      shimAllowed failingShim [.write 0x3FFFC#32 .word 5#32] = true ∧
      accessFault failingShim (shimTarget (.write 0x40000#32 .word 6#32)).1
        (shimTarget (.write 0x40000#32 .word 6#32)).2 = some (.segmentFault 0x40000#32)) ∧
    (∃ f, exec .cSwiTrap failingShim = .fault f ∧ memValue (faultFinal f).mem 0x3FFFC .word = 5#32) ∧
    condPassed .al failingShim = true :=
  ⟨⟨{ accesses := [.read 0x8000#32 .byte, .write 0x3FFFC#32 .word 5#32], result := 0#32, ends := false },
      rfl, rfl, by decide, rfl⟩, by decide, by decide, ⟨_, rfl, by decide⟩, by decide⟩

/-- A launch with an image byte in code and an initial byte in the stack. -/
def sampleLaunch : Launch :=
  { resetLaunch with
    segs := testSegments
    image := [(0x8000, 5#8), (0x20000, 9#8)]
    memInit := [(0x3FFFF, 0xAA#8)]
    entry := 0x8000#32 }

theorem test_witness_LaunchState : tableWf sampleLaunch.segs sampleLaunch.params = true ∧
    tableWf { testSegments with rodata := { base := 0x80FF, size := 1 } } sampleLaunch.params = false ∧
    resolve (launchState sampleLaunch) 0x8000 = some .code ∧ memGet (launchState sampleLaunch).mem 0x8000 = 5#8 ∧
    resolve (launchState sampleLaunch) 0x20000 = some .bss ∧ memGet (launchState sampleLaunch).mem 0x20000 = 0#8 ∧
    resolve (launchState sampleLaunch) 0x3FFFF = some .stack ∧ memGet (launchState sampleLaunch).mem 0x3FFFF = 0xAA#8 := by
  decide

end Sys2Proof.Tests
end

/-! The sequence of writes by which an instruction completes, and the frames read off it. -/

namespace Sys2Proof.Machine

/-! ## Flag updates -/

@[simp] theorem setFlags_status (s : State) (n z c v : Bool) :
    (setFlags s n z c v).status = statusWith s.status n z c v := rfl

@[simp] theorem flagC_setFlags (s : State) (n z c v : Bool) : flagC (setFlags s n z c v) = c :=
  bit_statusWith_c s.status n z c v

@[simp] theorem flagV_setFlags (s : State) (n z c v : Bool) : flagV (setFlags s n z c v) = v :=
  bit_statusWith_v s.status n z c v

/-- The carry and the overflow an update of the flags may set, by the rows of the table of 10_state.md R28. -/
def FlagsPermitted (e : FlagEffect) (s : State) (c v : Bool) : Prop :=
  match e with
  | .none => False
  | .nz => c = flagC s ∧ v = flagV s
  | .nzc => v = flagV s
  | .nzcv => True

/-- The row of the table of 10_state.md R28 that a data-processing result with `S = 1` belongs to. -/
def aluEffect : AluOut → FlagEffect
  | .logical _ _ => .nzc
  | .arithmetic _ => .nzcv

/-! ## Permitted writes -/

/-- The register is among those the tables of Machine/Claims give the instruction to write. -/
def MayWrite (i : Instr) (r : Reg) : Prop := if r = pcReg then writesPc i = true else r ∈ writtenRegs i

theorem mayWrite_pc {i : Instr} (h : writesPc i = true) : MayWrite i pcReg := by simpa [MayWrite] using h

theorem mayWrite_reg {i : Instr} {r : Reg} (h : r ∈ writtenRegs i) (hr : r ≠ pcReg) : MayWrite i r := by
  simpa [MayWrite, hr] using h

theorem not_mayWrite_pc {i : Instr} (h : writesPc i = false) : ¬ MayWrite i pcReg := by simp [MayWrite, h]

theorem not_mayWrite_reg {i : Instr} {r : Reg} (h : r ∉ writtenRegs i) (hr : r ≠ pcReg) : ¬ MayWrite i r := by
  simpa [MayWrite, hr] using h

theorem mayWrite_wideDest {i : Instr} {rd : Reg} (hd : wideDest i = [rd]) (hpc : rd = pcReg → writesPc i = true) :
    MayWrite i rd := by
  by_cases h : rd = pcReg
  · exact h ▸ mayWrite_pc (hpc h)
  · exact mayWrite_reg (by simp [writtenRegs, hd]) h

theorem mayWrite_compactDest {i : Instr} {r : Reg} (hd : r ∈ compactDest i) (hr : r ≠ pcReg) : MayWrite i r :=
  mayWrite_reg (by simp [writtenRegs, hd]) hr

theorem mayWrite_base {i : Instr} {r : Reg} (hb : r ∈ baseRegs i) (hr : r ≠ pcReg) : MayWrite i r :=
  mayWrite_reg (by simp [writtenRegs, hb]) hr

theorem mayWrite_fixed {i : Instr} {r : Reg} (hf : r ∈ fixedRegs i) (hr : r ≠ pcReg) : MayWrite i r :=
  mayWrite_reg (by simp [writtenRegs, hf]) hr

theorem lowReg_ne_pc (r : LowReg) : lowReg r ≠ pcReg := lowReg_ne (by decide)

theorem mayWrite_lowReg {i : Instr} {rd : LowReg} (hd : compactDest i = [lowReg rd]) : MayWrite i (lowReg rd) :=
  mayWrite_compactDest (by simp [hd]) (lowReg_ne_pc rd)

/-- The states an instruction can make of `s` by writes it is permitted: the registers and the flags that the tables
of Machine/Claims give it, memory, the mode it may ask for, and what only a trap changes. -/
inductive Writes (i : Instr) (s : State) : State → Prop where
  | start : Writes i s s
  | reg {t : State} {r : Reg} (v : Word) (h : Writes i s t) (hr : MayWrite i r) : Writes i s (t.setReg r v)
  | flags {t : State} {n z c v : Bool} (h : Writes i s t) (hf : FlagsPermitted (flagEffect i) t c v) :
      Writes i s (setFlags t n z c v)
  | mem {t : State} (m : Memory) (h : Writes i s t) : Writes i s (t.setMem m)
  | mode {t : State} {m : Mode} (h : Writes i s t) (hm : switchTarget i = some m) : Writes i s (t.setMode m)
  | shim {t : State} (l : List ShimReply) (n : Nat) (h : Writes i s t) (ht : isTrap i = true) :
      Writes i s (t.setShim l n)
  | run {t : State} {r : RunState} (h : Writes i s t) (ht : isTrap i = true) (hr : r = t.run ∨ r = .terminated) :
      Writes i s (t.setRun r)

theorem Writes.pc {i : Instr} {s t : State} (v : Word) (h : Writes i s t) (hpc : writesPc i = true) :
    Writes i s (t.setPc v) := .reg v h (mayWrite_pc hpc)

/-! ## What the shared operations write -/

section
variable {i : Instr} {s t : State}

theorem whenPassed_writes {c : Cond} {e : Out} (h : whenPassed c s e = .next t)
    (he : e = .next t → Writes i s t) : Writes i s t := by
  rcases whenPassed_next.mp h with ⟨-, h⟩ | ⟨-, rfl⟩
  · exact he h
  · exact .start

theorem unlessRefused_writes {b : Bool} {e : Out} (h : unlessRefused b s e = .next t)
    (he : b = false → e = .next t → Writes i s t) : Writes i s t :=
  have ⟨hb, h⟩ := unlessRefused_next.mp h
  he hb h

theorem next_writes {u : State} (h : Host.Outcome.next u = (.next t : Out)) (hu : Writes i s u) : Writes i s t := by
  cases h
  exact hu

theorem aluFlags_writes {r : AluOut} (hf : flagEffect i = aluEffect r) (h : Writes i s t) :
    Writes i s (aluFlags r t) := by
  cases r with
  | logical v c => exact .flags h (by rw [hf]; rfl)
  | arithmetic r => exact .flags h (by rw [hf]; trivial)

theorem dpWrite_writes {sf : Bool} {rd : Reg} {r : AluOut} (h : dpWrite sf rd r s = .next t)
    (hd : wideDest i = [rd]) (hpc : writesPc i = (rd == pcReg))
    (hf : flagEffect i = if sf then aluEffect r else .none) : Writes i s t := by
  have hrd : MayWrite i rd := mayWrite_wideDest hd fun e => by simp [hpc, e]
  rcases dpWrite_next.mp h with ⟨rfl, -, rfl⟩ | ⟨-, rfl⟩
  · exact .reg _ .start hrd
  · cases sf with
    | false => exact .reg _ .start hrd
    | true => exact aluFlags_writes hf (.reg _ .start hrd)

theorem dpCompare_writes {rd : Reg} {r : AluOut} (h : dpCompare rd r s = .next t)
    (hf : flagEffect i = aluEffect r) : Writes i s t := by
  obtain ⟨-, rfl⟩ := dpCompare_next.mp h
  exact aluFlags_writes hf .start

/-- A write-back to register 15 is refused, and Rd = 15 is refused where the row excludes it. -/
theorem lsRefused_false {pcAllowed p w : Bool} {rn rd : Reg} (h : lsRefused pcAllowed p w rn rd = false) :
    (lsWritesBack p w = true → rn ≠ pcReg) ∧ (rd = pcReg → pcAllowed = true) := by
  simp only [lsRefused, Bool.or_eq_false_iff, Bool.and_eq_false_iff] at h
  obtain ⟨hb, hd⟩ := h
  constructor
  · intro hw e
    simp [hw, e] at hb
  · intro e
    simpa [e] using hd

theorem lsRefused_of_lsRegRefused {pcAllowed p w : Bool} {rn rd rm : Reg}
    (h : lsRegRefused pcAllowed p w rn rd rm = false) : lsRefused pcAllowed p w rn rd = false :=
  (Bool.or_eq_false_iff.mp h).2

theorem lsBase_writes {p u w : Bool} {rn : Reg} {offset : Word} (h : Writes i s t)
    (hb : baseRegs i = if lsWritesBack p w then [rn] else []) (hn : lsWritesBack p w = true → rn ≠ pcReg) :
    Writes i s (lsBase s p u w rn offset t) := by
  unfold lsBase
  split
  · rename_i hw
    exact .reg _ h (mayWrite_base (by simp [hb, hw]) (hn hw))
  · exact h

theorem lsLoad_writes {pcAllowed p u w : Bool} {width : Width} {extend : Word → Word} {rn rd : Reg} {offset : Word}
    (hr : lsRefused pcAllowed p w rn rd = false) (h : lsLoad width extend p u w rn rd offset s = .next t)
    (hd : wideDest i = [rd]) (hb : baseRegs i = if lsWritesBack p w then [rn] else [])
    (hpc : writesPc i = (pcAllowed && rd == pcReg)) : Writes i s t := by
  obtain ⟨hn, hp⟩ := lsRefused_false hr
  have hrd : MayWrite i rd := mayWrite_wideDest hd fun e => by simp [hpc, hp e, e]
  have base := lsBase_writes (u := u) (offset := offset) (.start : Writes i s s) hb hn
  obtain ⟨-, rfl⟩ := lsLoad_next.mp h
  unfold lsWriteRd
  split
  · rename_i e
    exact .reg _ base (e ▸ hrd)
  · exact .reg _ base hrd

theorem lsStore_writes {pcAllowed p u w : Bool} {width : Width} {rn rd : Reg} {offset : Word}
    (hr : lsRefused pcAllowed p w rn rd = false) (h : lsStore width p u w rn rd offset s = .next t)
    (hb : baseRegs i = if lsWritesBack p w then [rn] else []) : Writes i s t := by
  obtain ⟨-, rfl⟩ := lsStore_next.mp h
  exact lsBase_writes (.mem _ .start) hb (lsRefused_false hr).1

theorem exchangeFromWide_writes {target : Word} {linked : State} (h : exchangeFromWide target linked s = .next t)
    (hl : Writes i s linked) (hpc : writesPc i = true) (hm : switchTarget i = some .compact) : Writes i s t := by
  rcases exchangeFromWide_next.mp h with ⟨-, rfl⟩ | ⟨-, -, rfl⟩
  · exact .pc _ hl hpc
  · exact .mode (.pc _ hl hpc) hm

theorem exchangeFromCompact_writes {target : Word} {linked : State} (h : exchangeFromCompact target linked = .next t)
    (hl : Writes i s linked) (hpc : writesPc i = true) (hm : switchTarget i = some .wide) : Writes i s t := by
  rw [exchangeFromCompact_next.mp h]
  split
  · exact .pc _ hl hpc
  · exact .mode (.pc _ hl hpc) hm

theorem compactShift_writes {rd : LowReg} {r : Shifted} (h : compactShift rd r s = .next t)
    (hd : compactDest i = [lowReg rd]) (hf : flagEffect i = .nzc) : Writes i s t :=
  next_writes h (.flags (.reg _ .start (mayWrite_lowReg hd)) (by rw [hf]; rfl))

theorem compactArith_writes {rd : LowReg} {r : Sum} (h : compactArith rd r s = .next t)
    (hd : compactDest i = [lowReg rd]) (hf : flagEffect i = .nzcv) : Writes i s t :=
  next_writes h (.flags (.reg _ .start (mayWrite_lowReg hd)) (by rw [hf]; trivial))

theorem compactLogic_writes {rd : LowReg} {r : Word} (h : compactLogic rd r s = .next t)
    (hd : compactDest i = [lowReg rd]) (hf : flagEffect i = .nz) : Writes i s t :=
  next_writes h (.flags (.reg _ .start (mayWrite_lowReg hd)) (by rw [hf]; exact ⟨rfl, rfl⟩))

theorem compactMove_writes {rd : LowReg} {v : Word} (h : compactMove rd v s = .next t)
    (hd : compactDest i = [lowReg rd]) : Writes i s t :=
  next_writes h (.reg _ .start (mayWrite_lowReg hd))

theorem highWrite_writes {rd : Reg} {v : Word} (h : highWrite rd v s = .next t)
    (hd : compactDest i = [rd]) (hpc : writesPc i = (rd == pcReg)) : Writes i s t := by
  rw [highWrite_next.mp h]
  split
  · rename_i e
    exact .pc _ .start (by simp [hpc, e])
  · rename_i hr
    exact .reg _ .start (mayWrite_compactDest (by simp [hd]) hr)

theorem compactLoad_writes {width : Width} {extend : Word → Word} {rd : LowReg} {addr : Word}
    (h : compactLoad width extend rd addr s = .next t) (hd : compactDest i = [lowReg rd]) : Writes i s t := by
  obtain ⟨-, rfl⟩ := compactLoad_next.mp h
  exact .reg _ .start (mayWrite_lowReg hd)

theorem compactStore_writes {width : Width} {rd : LowReg} {addr : Word}
    (h : compactStore width rd addr s = .next t) : Writes i s t := by
  obtain ⟨-, rfl⟩ := compactStore_next.mp h
  exact .mem _ .start

theorem storeRegs_writes {regs : List Reg} {addr b : Word} {u : State} (h : storeRegs regs addr s = .done b u) :
    Writes i s u := by
  obtain ⟨m, ⟨a, e⟩ | ⟨k, e⟩⟩ := storeRegs_mem regs addr s
  · rw [h] at e
    cases e
    exact .mem m .start
  · simp [h] at e

theorem loadRegs_writes {regs : List Reg} (hw : ∀ r ∈ regs, MayWrite i r) : ∀ {addr b : Word} {u v : State},
    Writes i s u → loadRegs regs addr u = .done b v → Writes i s v := by
  induction regs with
  | nil =>
    intro addr b u v hu h
    cases h
    exact hu
  | cons r rest ih =>
    intro addr b u v hu h
    unfold loadRegs at h
    split at h
    · cases h
    · exact ih (fun q hq => hw q (List.mem_cons_of_mem _ hq)) (.reg _ hu (hw r List.mem_cons_self)) h

theorem listRegs_writes {list : BitVec 8} {addr b : Word} {u : State} (h : loadRegs (listRegs list) addr s = .done b u)
    (hd : compactDest i = listRegs list) : Writes i s u := by
  refine loadRegs_writes (fun r hr => mayWrite_compactDest (hd ▸ hr) ?_) .start h
  exact fun e => pcReg_not_mem_listRegs list (e ▸ hr)

theorem popPc_writes {addr : Word} {u : State} (h : popPc addr u = .next t) (hu : Writes i s u)
    (hb : spReg ∈ baseRegs i) (hpc : writesPc i = true) (hm : switchTarget i = some .wide) : Writes i s t := by
  have hsp : MayWrite i spReg := mayWrite_base hb (by decide)
  obtain ⟨-, ⟨-, rfl⟩ | ⟨-, -, rfl⟩⟩ := popPc_next.mp h
  · exact .reg _ (.pc _ hu hpc) hsp
  · exact .mode (.reg _ (.pc _ hu hpc) hsp) hm

theorem trap_writes (h : trap s = .next t) (ht : isTrap i = true) (hx : (0#4 : Reg) ∈ fixedRegs i) :
    Writes i s t := by
  obtain ⟨m, v, r, rfl, hr, -⟩ := trap_next h
  exact .run (.reg v (.mem m (.shim _ _ .start ht)) (mayWrite_fixed hx (by decide))) ht hr

end

/-! ## The instructions of several words -/

section
variable {s t : State}

theorem execCPush_writes {lr : Bool} {list : BitVec 8} (h : execCPush lr list s = .next t) :
    Writes (.cPush lr list) s t := by
  unfold execCPush at h
  split at h
  · simp at h
  · rename_i e
    exact next_writes h (.reg _ (storeRegs_writes e) (mayWrite_base List.mem_cons_self (by decide)))

theorem execCStmia_writes {rn : LowReg} {list : BitVec 8} (h : execCStmia rn list s = .next t) :
    Writes (.cStmia rn list) s t := by
  unfold execCStmia at h
  split at h
  · simp at h
  · rename_i e
    exact next_writes h (.reg _ (storeRegs_writes e) (mayWrite_base List.mem_cons_self (lowReg_ne_pc rn)))

theorem execCLdmia_writes {rn : LowReg} {list : BitVec 8} (h : execCLdmia rn list s = .next t) :
    Writes (.cLdmia rn list) s t := by
  unfold execCLdmia at h
  split at h
  · simp at h
  · rename_i e
    exact next_writes h (.reg _ (listRegs_writes e rfl) (mayWrite_base List.mem_cons_self (lowReg_ne_pc rn)))

theorem execCPop_writes {pc : Bool} {list : BitVec 8} (h : execCPop pc list s = .next t) :
    Writes (.cPop pc list) s t := by
  unfold execCPop at h
  split at h
  · simp at h
  · rename_i e
    cases pc with
    | false => exact next_writes h (.reg _ (listRegs_writes e rfl) (mayWrite_base List.mem_cons_self (by decide)))
    | true => exact popPc_writes h (listRegs_writes e rfl) List.mem_cons_self rfl rfl

end

/-! ## Every instruction -/

/-- An instruction that completes has done nothing but permitted writes. The cases are grouped by the shared operation
that ends the instruction. -/
theorem exec_writes {i : Instr} {s t : State} (h : exec i s = .next t) : Writes i s t := by
  cases i with
  | andImm | andReg | eorImm | eorReg | subImm | subReg | rsbImm | rsbReg | addImm | addReg | adcImm | adcReg
  | sbcImm | sbcReg | rscImm | rscReg | orrImm | orrReg | movImm | movReg | bicImm | bicReg | mvnImm | mvnReg =>
    exact whenPassed_writes h fun h => dpWrite_writes h rfl rfl rfl
  | andRsr | eorRsr | subRsr | rsbRsr | addRsr | adcRsr | sbcRsr | rscRsr | orrRsr | movRsr | bicRsr | mvnRsr =>
    exact whenPassed_writes h fun h => unlessRefused_writes h fun _ h => dpWrite_writes h rfl rfl rfl
  | tstImm | tstReg | teqImm | teqReg | cmpImm | cmpReg | cmnImm | cmnReg =>
    exact whenPassed_writes h fun h => dpCompare_writes h rfl
  | tstRsr | teqRsr | cmpRsr | cmnRsr =>
    exact whenPassed_writes h fun h => unlessRefused_writes h fun _ h => dpCompare_writes h rfl
  | mrs c saved rd =>
    refine whenPassed_writes h fun h => unlessRefused_writes h fun hr h => ?_
    cases saved with
    | true => exact absurd h (unimplemented_ne_next s t)
    | false => exact next_writes h (.reg _ .start (mayWrite_wideDest rfl fun e => by simp [e] at hr))
  | clz c rd rm =>
    exact whenPassed_writes h fun h => unlessRefused_writes h fun hr h =>
      next_writes h (.reg _ .start (mayWrite_wideDest rfl fun e => by simp [e] at hr))
  | mul c sf rd rs rm =>
    refine whenPassed_writes h fun h => unlessRefused_writes h fun hr h => next_writes h ?_
    have hrd : MayWrite (.mul c sf rd rs rm) rd := mayWrite_wideDest rfl fun e => by simp [e] at hr
    cases sf with
    | false => exact .reg _ .start hrd
    | true => exact .flags (.reg _ .start hrd) ⟨rfl, rfl⟩
  | bx => exact whenPassed_writes h fun h => exchangeFromWide_writes h .start rfl rfl
  | blxReg =>
    exact whenPassed_writes h fun h => unlessRefused_writes h fun _ h =>
      exchangeFromWide_writes h (.reg _ .start (mayWrite_fixed List.mem_cons_self (by decide))) rfl rfl
  | msrReg | msrImm | bxj | qadd | qsub | qdadd | qdsub | bkpt | smlaXY | smlawSmulw | smlalXY | smulXY | mla | umaal
  | umull | umlal | smull | smlal | swp | swpb | strex | ldrex | ldrdImm | ldrdReg | strdImm | strdReg | ldrshImm
  | media | stm | ldm | copMem | copReg =>
    exact whenPassed_writes h fun h => absurd h (unimplemented_ne_next s t)
  | ldrhImm | ldrsbImm | ldrImm | ldrtImm | ldrbImm | ldrbtImm =>
    exact whenPassed_writes h fun h => unlessRefused_writes h fun hr h => lsLoad_writes hr h rfl rfl rfl
  | ldrhReg | ldrsbReg | ldrshReg | ldrReg | ldrtReg | ldrbReg | ldrbtReg =>
    exact whenPassed_writes h fun h => unlessRefused_writes h fun hr h =>
      lsLoad_writes (lsRefused_of_lsRegRefused hr) h rfl rfl rfl
  | strhImm | strImm | strtImm | strbImm | strbtImm =>
    exact whenPassed_writes h fun h => unlessRefused_writes h fun hr h => lsStore_writes hr h rfl
  | strhReg | strReg | strtReg | strbReg | strbtReg =>
    exact whenPassed_writes h fun h => unlessRefused_writes h fun hr h =>
      lsStore_writes (lsRefused_of_lsRegRefused hr) h rfl
  | b => exact whenPassed_writes h fun h => next_writes h (.pc _ .start rfl)
  | bl =>
    exact whenPassed_writes h fun h =>
      next_writes h (.pc _ (.reg _ .start (mayWrite_fixed List.mem_cons_self (by decide))) rfl)
  | swiTrap => exact whenPassed_writes h fun h => trap_writes h rfl List.mem_cons_self
  | swiOther => exact whenPassed_writes h fun h => next_writes h .start
  | cLslImm | cLsrImm | cAsrImm | cLsl | cLsr | cAsr | cRor => exact compactShift_writes h rfl rfl
  | cAddReg | cSubReg | cAddImm3 | cSubImm3 | cAddImm8 | cSubImm8 | cAdc | cSbc | cNeg =>
    exact compactArith_writes h rfl rfl
  | cMovImm8 | cAnd | cEor | cOrr | cMul | cBic | cMvn => exact compactLogic_writes h rfl rfl
  | cCmpImm8 | cCmp | cCmn | cCmpHi => exact next_writes h (.flags .start trivial)
  | cTst => exact next_writes h (.flags .start ⟨rfl, rfl⟩)
  | cAddHi | cMovHi => exact highWrite_writes h rfl rfl
  | cBx => exact exchangeFromCompact_writes h .start rfl rfl
  | cBlxReg =>
    exact unlessRefused_writes h fun _ h =>
      exchangeFromCompact_writes h (.reg _ .start (mayWrite_fixed List.mem_cons_self (by decide))) rfl rfl
  | cLdrLit | cLdrsbReg | cLdrReg | cLdrhReg | cLdrbReg | cLdrshReg | cLdrImm | cLdrbImm | cLdrhImm | cLdrSp =>
    exact compactLoad_writes h rfl
  | cStrReg | cStrhReg | cStrbReg | cStrImm | cStrbImm | cStrhImm | cStrSp => exact compactStore_writes h
  | cAddPc | cAddSp => exact next_writes h (.reg _ .start (mayWrite_lowReg rfl))
  | cAddSpImm | cSubSpImm => exact next_writes h (.reg _ .start (mayWrite_base List.mem_cons_self (by decide)))
  | cSxth | cSxtb | cUxth | cUxtb | cRev | cRev16 | cRevsh => exact compactMove_writes h rfl
  | cPush => exact execCPush_writes h
  | cPop => exact execCPop_writes h
  | cStmia => exact execCStmia_writes h
  | cLdmia => exact execCLdmia_writes h
  | cSetend | cCps | cBkpt | cSwiOther | cBlxSuffix => exact absurd h (unimplemented_ne_next s t)
  | cRevUnalloc | cBcond1110 => exact absurd h (undefined_ne_next s t)
  | cBcond => exact whenPassed_writes h fun h => next_writes h (.pc _ .start rfl)
  | cSwiTrap => exact trap_writes h rfl List.mem_cons_self
  | cB => exact next_writes h (.pc _ .start rfl)
  | cBlPrefix => exact next_writes h (.reg _ .start (mayWrite_fixed List.mem_cons_self (by decide)))
  | cBlSuffix =>
    exact next_writes h (.pc _ (.reg _ .start (mayWrite_fixed List.mem_cons_self (by decide))) rfl)

/-! ## What permitted writes keep -/

section
variable {i : Instr} {s t : State}

theorem Writes.reg_kept (h : Writes i s t) {q : Reg} (hq : ¬ MayWrite i q) : t.reg q = s.reg q := by
  induction h with
  | start => rfl
  | reg v _ hr ih =>
    rw [State.reg_setReg_ne _ _ (by rintro rfl; exact hq hr), ih]
  | flags _ _ ih | mem _ _ ih | mode _ _ ih | shim _ _ _ _ ih | run _ _ _ ih => exact ih

theorem Writes.low_status_kept (h : Writes i s t) : field t.status 0 28 = field s.status 0 28 := by
  induction h with
  | start => rfl
  | flags _ _ ih => rw [setFlags_status, field_statusWith, ih]
  | reg _ _ _ ih | mem _ _ ih | mode _ _ ih | shim _ _ _ _ ih | run _ _ _ ih => exact ih

/-- The first class of the table of 10_state.md R28. -/
theorem Writes.status_kept (h : Writes i s t) (he : flagEffect i = .none) : t.status = s.status := by
  induction h with
  | start => rfl
  | flags _ hf _ => rw [he] at hf; exact hf.elim
  | reg _ _ _ ih | mem _ _ ih | mode _ _ ih | shim _ _ _ _ ih | run _ _ _ ih => exact ih

/-- The second class of the table of 10_state.md R28. -/
theorem Writes.carry_overflow_kept (h : Writes i s t) (he : flagEffect i = .nz) :
    flagC t = flagC s ∧ flagV t = flagV s := by
  induction h with
  | start => exact ⟨rfl, rfl⟩
  | flags _ hf ih =>
    rw [he] at hf
    obtain ⟨hc, hv⟩ := hf
    rwa [flagC_setFlags, flagV_setFlags, hc, hv]
  | reg _ _ _ ih | mem _ _ ih | mode _ _ ih | shim _ _ _ _ ih | run _ _ _ ih => exact ih

/-- The third class of the table of 10_state.md R28. -/
theorem Writes.overflow_kept (h : Writes i s t) (he : flagEffect i = .nzc) : flagV t = flagV s := by
  induction h with
  | start => rfl
  | flags _ hf ih =>
    rw [he] at hf
    have hv : _ = flagV _ := hf
    rwa [flagV_setFlags, hv]
  | reg _ _ _ ih | mem _ _ ih | mode _ _ ih | shim _ _ _ _ ih | run _ _ _ ih => exact ih

theorem Writes.fixed_kept (h : Writes i s t) :
    t.segs = s.segs ∧ t.params = s.params ∧ t.iaddr = s.iaddr ∧ t.instr = s.instr := by
  induction h with
  | start => exact ⟨rfl, rfl, rfl, rfl⟩
  | reg _ _ _ ih | flags _ _ ih | mem _ _ ih | mode _ _ ih | shim _ _ _ _ ih | run _ _ _ ih => exact ih

theorem Writes.mode_kept (h : Writes i s t) (hn : switchTarget i = none) : t.mode = s.mode := by
  induction h with
  | start => rfl
  | mode _ hm _ => rw [hn] at hm; cases hm
  | reg _ _ _ ih | flags _ _ ih | mem _ _ ih | shim _ _ _ _ ih | run _ _ _ ih => exact ih

theorem Writes.shim_kept (h : Writes i s t) (hn : isTrap i = false) :
    t.run = s.run ∧ t.shim = s.shim ∧ t.shimCalls = s.shimCalls := by
  induction h with
  | start => exact ⟨rfl, rfl, rfl⟩
  | shim _ _ _ ht _ | run _ ht _ _ => rw [hn] at ht; cases ht
  | reg _ _ _ ih | flags _ _ ih | mem _ _ ih | mode _ _ ih => exact ih

theorem Writes.run_kept_or_terminated (h : Writes i s t) : t.run = s.run ∨ t.run = .terminated := by
  induction h with
  | start => exact .inl rfl
  | run _ _ hr ih =>
    rcases hr with rfl | rfl
    · exact ih
    · exact .inr rfl
  | reg _ _ _ ih | flags _ _ ih | mem _ _ ih | mode _ _ ih | shim _ _ _ _ ih => exact ih

end

/-- A trap is in no row of the tables of the flags, of the program counter and of the mode. -/
theorem isTrap_rows {i : Instr} (h : isTrap i = true) :
    switchTarget i = none ∧ flagEffect i = .none ∧ writesPc i = false := by
  unfold isTrap at h
  split at h
  · exact ⟨rfl, rfl, rfl⟩
  · exact ⟨rfl, rfl, rfl⟩
  · cases h

/-! ## The frames of an instruction -/

/-- Settles O38: a register of no list is one the instruction may not write. -/
theorem frameRegisters : Obligations.FrameRegisters :=
  fun _ _ _ h _ hpc hr => (exec_writes h).reg_kept (not_mayWrite_reg hr hpc)

/-- Settles O39: outside the rows of R25 register 15 is one the instruction may not write. -/
theorem framePc : Obligations.FramePc :=
  fun _ _ _ h hpc => (exec_writes h).reg_kept (not_mayWrite_pc hpc)

/-- Settles O40, by the permitted flag updates of each class of the table. -/
theorem frameFlags : Obligations.FrameFlags :=
  fun _ _ _ h =>
    have w := exec_writes h
    ⟨w.low_status_kept, w.status_kept, w.carry_overflow_kept, w.overflow_kept⟩

/-- Settles O42: no permitted write is to a control field, but for the mode and what a trap changes. -/
theorem frameControl : Obligations.FrameControl := by
  intro i s t h
  have w := exec_writes h
  obtain ⟨hsegs, hparams, hiaddr, hinstr⟩ := w.fixed_kept
  refine ⟨hsegs, hparams, hiaddr, hinstr, w.mode_kept, w.shim_kept, fun ht => ?_⟩
  obtain ⟨hm, hf, hpc⟩ := isTrap_rows ht
  exact ⟨w.run_kept_or_terminated, w.mode_kept hm, w.status_kept hf, w.reg_kept (not_mayWrite_pc hpc)⟩

/-! ## Runs -/

/-- What no step changes: status bits 27:0 (10_state.md R27), the segment table (20_memory.md R50) and the constants
of the design. -/
def SameConfiguration (s t : State) : Prop :=
  field t.status 0 28 = field s.status 0 28 ∧ t.segs = s.segs ∧ t.params = s.params

theorem SameConfiguration.trans {s t u : State} (h : SameConfiguration s t) (h' : SameConfiguration t u) :
    SameConfiguration s u := by
  obtain ⟨hst, hsg, hp⟩ := h
  obtain ⟨hst', hsg', hp'⟩ := h'
  exact ⟨hst'.trans hst, hsg'.trans hsg, hp'.trans hp⟩

theorem sameConfiguration_advance (s : State) (w : Word) : SameConfiguration s (advance s w) := ⟨rfl, rfl, rfl⟩

theorem sameConfiguration_of_exec {i : Instr} {s t : State} (h : exec i s = .next t) : SameConfiguration s t :=
  have ⟨hstatus, _⟩ := frameFlags i s t h
  have ⟨hsegs, hparams, _⟩ := frameControl i s t h
  ⟨hstatus, hsegs, hparams⟩

theorem sameConfiguration_of_stepsTo {s t : State} (h : StepsTo s t) : SameConfiguration s t := by
  obtain ⟨-, w, -, ⟨i, -, he⟩ | ⟨e, -, rfl⟩⟩ := step_next h
  · exact (sameConfiguration_advance s w).trans (sameConfiguration_of_exec he)
  · exact sameConfiguration_advance s w

/-- Settles O37, by induction on the run. -/
theorem runKeepsConfiguration : Obligations.RunKeepsConfiguration := by
  intro s t h
  induction h with
  | start => exact ⟨rfl, rfl, rfl⟩
  | more _ hstep ih => exact SameConfiguration.trans ih (sameConfiguration_of_stepsTo hstep)

end Sys2Proof.Machine

/-! The launch of a run: which cells are loaded, and what the state it hands over holds. -/

namespace Sys2Proof.Machine

/-! ## Segments of a well-formed table -/

theorem segDisjoint_iff {g h : Segment} : segDisjoint g h = true ↔
    g.size = 0 ∨ h.size = 0 ∨ g.base + g.size ≤ h.base ∨ h.base + h.size ≤ g.base := by
  unfold segDisjoint
  rw [Bool.or_eq_true, Bool.or_eq_true, Bool.or_eq_true, beq_iff_eq, beq_iff_eq, decide_eq_true_eq, decide_eq_true_eq,
    or_assoc, or_assoc]
  rfl

theorem segDisjoint_symm {g h : Segment} (hd : segDisjoint g h = true) : segDisjoint h g = true := by
  rw [segDisjoint_iff] at hd ⊢
  omega

theorem not_owns_of_segDisjoint {g h : Segment} {a : Nat} (hd : segDisjoint g h = true) (hg : segOwns g a = true) :
    segOwns h a = false := by
  rw [Bool.eq_false_iff]
  intro hh
  rw [segOwns_iff] at hg hh
  rw [segDisjoint_iff] at hd
  omega

theorem allDisjoint_iff_pairwise {l : List Segment} :
    allDisjoint l = true ↔ l.Pairwise fun g h => segDisjoint g h = true := by
  induction l with
  | nil => simp [allDisjoint]
  | cons g rest ih => simp [allDisjoint, ih]

/-- The six kinds of segment, in the order of `allSegments`. -/
def allKinds : List SegmentKind := [.code, .rodata, .data, .bss, .heap, .stack]

theorem mem_allKinds (k : SegmentKind) : k ∈ allKinds := by cases k <;> decide

theorem allSegments_eq_map (t : SegmentTable) (p : Params) : allSegments t p = allKinds.map (segmentOf t p) := rfl

/-- In a well-formed table two kinds of segment share no address (20_memory.md R51, R52). -/
theorem segDisjoint_of_tableWf {t : SegmentTable} {p : Params} (h : tableWf t p = true) {j k : SegmentKind}
    (hjk : j ≠ k) : segDisjoint (segmentOf t p j) (segmentOf t p k) = true := by
  have hd : allDisjoint (allSegments t p) = true := by
    simp only [tableWf, Bool.and_eq_true] at h
    exact h.1.2
  rw [allDisjoint_iff_pairwise, allSegments_eq_map, List.pairwise_map] at hd
  have : Std.Symm fun j k => segDisjoint (segmentOf t p j) (segmentOf t p k) = true := ⟨fun _ _ => segDisjoint_symm⟩
  exact hd.forall (mem_allKinds j) (mem_allKinds k) hjk

/-- In a well-formed table an address lies in the segment it resolves to and in no other. -/
theorem segOwns_eq_of_resolve {s : State} (h : tableWf s.segs s.params = true) {a : Nat} {k : SegmentKind}
    (hk : resolve s a = some k) (j : SegmentKind) : segOwns (segmentOf s.segs s.params j) a = decide (j = k) := by
  have owns := resolve_some hk
  by_cases hj : j = k
  · simp [hj, owns]
  · simp [hj, not_owns_of_segDisjoint (segDisjoint_of_tableWf h (Ne.symm hj)) owns]

theorem cellIn_eq_of_resolve {s : State} (h : tableWf s.segs s.params = true) {a : Nat} {k : SegmentKind}
    (hk : resolve s a = some k) (kinds : List SegmentKind) (v : Byte) :
    cellIn s.segs s.params kinds (a, v) = decide (k ∈ kinds) := by
  simp [cellIn, segOwns_eq_of_resolve h hk, List.any_eq, eq_comm]

/-! ## Loading cells -/

theorem memGet_loadCells_congr (cells : List Host.Cell) {a : Nat} : ∀ {m n : Memory},
    memGet m a = memGet n a → memGet (loadCells cells m) a = memGet (loadCells cells n) a := by
  induction cells with
  | nil => exact fun h => h
  | cons cell rest ih =>
    obtain ⟨b, v⟩ := cell
    exact fun h => ih (by simp only [memGet_memPut, h])

theorem memGet_loadCells_filter_keep {keep : Host.Cell → Bool} {a : Nat} (hk : ∀ v, keep (a, v) = true)
    (cells : List Host.Cell) : ∀ m : Memory,
    memGet (loadCells (cells.filter keep) m) a = memGet (loadCells cells m) a := by
  induction cells with
  | nil => exact fun _ => rfl
  | cons cell rest ih =>
    obtain ⟨b, v⟩ := cell
    intro m
    cases hc : keep (b, v) with
    | true =>
      rw [List.filter_cons_of_pos hc]
      exact ih _
    | false =>
      have hab : a ≠ b := by
        rintro rfl
        simp [hk v] at hc
      rw [List.filter_cons_of_neg (by simp [hc]), ih]
      exact memGet_loadCells_congr rest (by simp [memGet_memPut, hab])

theorem memGet_loadCells_filter_drop {keep : Host.Cell → Bool} {a : Nat} (hk : ∀ v, keep (a, v) = false)
    (cells : List Host.Cell) : ∀ m : Memory, memGet (loadCells (cells.filter keep) m) a = memGet m a := by
  induction cells with
  | nil => exact fun _ => rfl
  | cons cell rest ih =>
    obtain ⟨b, v⟩ := cell
    intro m
    cases hc : keep (b, v) with
    | true =>
      have hab : a ≠ b := by
        rintro rfl
        simp [hk v] at hc
      rw [List.filter_cons_of_pos hc]
      exact (ih _).trans (by simp [memGet_memPut, hab])
    | false => rw [List.filter_cons_of_neg (by simp [hc]), ih]

/-! ## Memory at the hand-over -/

section
variable {l : Launch} {a : Nat} {k : SegmentKind}

theorem memGet_launchMem_image (h : tableWf l.segs l.params = true) (hk : resolve (launchState l) a = some k)
    (hi : k ∈ [SegmentKind.code, .rodata, .data]) : memGet (launchMem l) a = memGet (loadCells l.image []) a := by
  have loaded (kinds : List SegmentKind) (v : Byte) : cellIn l.segs l.params kinds (a, v) = decide (k ∈ kinds) :=
    cellIn_eq_of_resolve (s := launchState l) h hk kinds v
  have hm : k ∉ [SegmentKind.heap, .stack] := by revert hi; cases k <;> decide
  unfold launchMem
  rw [memGet_loadCells_filter_keep fun v => by rw [loaded, decide_eq_true hi]]
  exact memGet_loadCells_congr _ (memGet_loadCells_filter_drop (fun v => by rw [loaded, decide_eq_false hm]) _ _)

theorem memGet_launchMem_init (h : tableWf l.segs l.params = true) (hk : resolve (launchState l) a = some k)
    (hi : k ∉ [SegmentKind.code, .rodata, .data]) : memGet (launchMem l) a =
      if k ∈ [SegmentKind.heap, .stack] then memGet (loadCells l.memInit []) a else unlistedByte := by
  have loaded (kinds : List SegmentKind) (v : Byte) : cellIn l.segs l.params kinds (a, v) = decide (k ∈ kinds) :=
    cellIn_eq_of_resolve (s := launchState l) h hk kinds v
  unfold launchMem
  rw [memGet_loadCells_filter_drop fun v => by rw [loaded, decide_eq_false hi]]
  split
  · rename_i hm
    exact memGet_loadCells_filter_keep (fun v => by rw [loaded, decide_eq_true hm]) _ _
  · rename_i hm
    exact memGet_loadCells_filter_drop (fun v => by rw [loaded, decide_eq_false hm]) _ _

end

/-! ## The state handed over -/

theorem launchState_reg (l : Launch) (r : Reg) : (launchState l).reg r =
    if r = pcReg then l.entry else if r = spReg then l.params.stackTop else l.regReset[r.toNat] := by
  simp only [State.reg, launchState, Vector.getElem_set, BitVec.toNat_inj, @eq_comm _ _ r]

theorem launch_of_wf {l : Launch} (h : tableWf l.segs l.params = true) : launch l = .next (launchState l) := if_pos h

theorem launch_of_malformed {l : Launch} (h : tableWf l.segs l.params = false) :
    launch l = .refused .malformedLaunch := if_neg (by simp [h])

/-- Settles O60: the bytes by the kind of segment their address resolves to. The name `launchState` is the model's own
here, so the theorem stands under `Settled`. -/
theorem Settled.launchState : Obligations.LaunchState := by
  intro l
  refine ⟨launch_of_malformed, fun h => ⟨_, launch_of_wf h, rfl, rfl, launchState_reg l pcReg, launchState_reg l spReg,
    rfl, rfl, rfl, ?_, ?_, ?_, ?_⟩⟩
  · intro r hsp hpc
    simp [launchState_reg, hsp, hpc]
  · exact fun a hk => memGet_launchMem_init h hk (by decide)
  · rintro a (hk | hk | hk) <;> exact memGet_launchMem_image h hk (by decide)
  · rintro a (hk | hk) <;> exact memGet_launchMem_init h hk (by decide)

/-- Settles O36: reset lists no byte, and its empty table is well-formed. -/
theorem resetHasInv : Obligations.ResetHasInv :=
  ⟨⟨reset_mem_wf, by decide⟩, rfl, rfl, rfl⟩

end Sys2Proof.Machine

/-! Conditions, operands and offsets, the load of the program counter, and the start of a step. -/

namespace Sys2Proof.Machine

/-! ## The condition table and the status word -/

/-- A bit of the low 28 is a bit of the field that no flag update changes. -/
theorem getLsbD_statusWith_low (st : Word) (n z c v : Bool) {i : Nat} (hi : i < 28) :
    (statusWith st n z c v).getLsbD i = st.getLsbD i := by
  have h := congrArg (·.getLsbD i) (field_statusWith st n z c v)
  simpa [field, hi] using h

/-- Settles O12: the sixteen rows of the table by the condition, then the places of the flags. -/
theorem conditionTable : Obligations.ConditionTable := by
  refine ⟨?_, ?_, ?_, ?_, ?_, ?_, ?_, ?_, ?_, ?_, ?_, ?_, ?_, ?_, ?_, ?_, fun _ _ => rfl, fun _ => ⟨rfl, rfl, rfl, rfl⟩,
    fun st n z c v => ⟨bit_statusWith_n st n z c v, bit_statusWith_z st n z c v, bit_statusWith_c st n z c v,
      bit_statusWith_v st n z c v, fun _ => getLsbD_statusWith_low st n z c v⟩⟩
  all_goals
    intro c
    cases c <;> rfl

/-! ## Operands and offsets -/

/-- A rotation moves bit `i + n`, counted modulo 32, to bit `i` (00_scope.md R8). -/
theorem getLsbD_rotateRight (v : Word) {n i : Nat} (hn : n < 32) (hi : i < 32) :
    (rotateRight v n).getLsbD i = v.getLsbD ((i + n) % 32) := by
  unfold rotateRight
  split
  · rename_i h
    simp [h, Nat.mod_eq_of_lt hi]
  · rw [BitVec.getLsbD_or, BitVec.getLsbD_ushiftRight, BitVec.getLsbD_shiftLeft]
    by_cases hw : i + n < 32
    · have low : i < 32 - n := by omega
      have stay : (i + n) % 32 = n + i := by omega
      simp [hi, low, stay]
    · have high : ¬ i < 32 - n := by omega
      have wrap : (i + n) % 32 = i - (32 - n) := by omega
      simp [hi, high, wrap, BitVec.getLsbD_of_ge v (n + i) (by omega)]

theorem getLsbD_operandImm (s : State) (rot : BitVec 4) (imm : BitVec 8) {i : Nat} (hi : i < 32) :
    (operandImm s rot imm).value.getLsbD i = imm.getLsbD ((i + 2 * rot.toNat) % 32) := by
  have hn : 2 * rot.toNat < 32 := by have := rot.isLt; omega
  have hm : (i + 2 * rot.toNat) % 32 < 32 := Nat.mod_lt _ (by decide)
  rw [operandImm, getLsbD_rotateRight _ hn hi, BitVec.getLsbD_setWidth, decide_eq_true hm, Bool.true_and]

theorem operandImm_carry (s : State) (rot : BitVec 4) (imm : BitVec 8) :
    (operandImm s rot imm).carry = if rot = 0#4 then flagC s else (operandImm s rot imm).value.msb := by
  rw [BitVec.msb_eq_getLsbD_last]
  rfl

theorem readWide_of_ne {s : State} {r : Reg} (h : r ≠ pcReg) : readWide s r = s.reg r := if_neg h

theorem operandRsr_of_ne {s : State} {rs rm : Reg} {sh : ShiftType} (hs : rs ≠ pcReg) (hm : rm ≠ pcReg) :
    operandRsr s rs sh rm = shiftByReg sh (s.reg rm) (s.reg rs) (flagC s) := by
  rw [operandRsr, readWide_of_ne hm, readWide_of_ne hs]

theorem toNat_offsetImm12 (imm12 : BitVec 12) : (offsetImm12 imm12).toNat = imm12.toNat := by
  have := imm12.isLt
  rw [offsetImm12, BitVec.toNat_setWidth]
  omega

theorem toNat_offsetSplit (immH immL : BitVec 4) : (offsetSplit immH immL).toNat = 16 * immH.toNat + immL.toNat := by
  have hh := immH.isLt
  have hl := immL.isLt
  rw [offsetSplit, BitVec.toNat_setWidth, BitVec.toNat_append, ← Nat.shiftLeft_add_eq_or_of_lt hl, Nat.shiftLeft_eq]
  omega

/-- A register scaled by LSL #0 is the register itself (43_wide_load_store.md R231). -/
theorem offsetScaled_unshifted (s : State) (rm : Reg) : offsetScaled s 0#5 .lsl rm = readWide s rm := rfl

theorem toNat_offAddr_add (s : State) (rn : Reg) (offset : Word) :
    (offAddr s true rn offset).toNat = ((readWide s rn).toNat + offset.toNat) % 2 ^ 32 :=
  BitVec.toNat_add _ _

theorem toNat_offAddr_sub (s : State) (rn : Reg) (offset : Word) :
    (offAddr s false rn offset).toNat = ((readWide s rn).toNat + 2 ^ 32 - offset.toNat) % 2 ^ 32 := by
  have := offset.isLt
  have e : (offAddr s false rn offset).toNat = (2 ^ 32 - offset.toNat + (readWide s rn).toNat) % 2 ^ 32 :=
    BitVec.toNat_sub _ _
  rw [e]
  congr 1
  omega

theorem lsWritesBack_eq_true {p w : Bool} : lsWritesBack p w = true ↔ p = false ∨ w = true := by
  simp [lsWritesBack]

theorem lsBase_of_writesBack {s t : State} {p u w : Bool} {rn : Reg} {offset : Word}
    (h : lsWritesBack p w = true) : lsBase s p u w rn offset t = t.setReg rn (offAddr s u rn offset) := if_pos h

theorem lsBase_of_not_writesBack {s t : State} {p u w : Bool} {rn : Reg} {offset : Word}
    (h : ¬ lsWritesBack p w = true) : lsBase s p u w rn offset t = t := if_neg h

/-- Settles O15, from the lemma of each operand, offset and address above. -/
theorem operandsAndOffsets : Obligations.OperandsAndOffsets := by
  intro s
  refine ⟨fun rot imm => ⟨fun _ => getLsbD_operandImm s rot imm, operandImm_carry s rot imm⟩,
    fun _ _ _ => rfl, fun _ _ _ => operandRsr_of_ne, fun _ => rfl, fun _ => rfl, toNat_offsetImm12, fun _ _ _ => rfl,
    offsetScaled_unshifted s, toNat_offsetSplit, fun _ => rfl,
    fun rn offset => ⟨toNat_offAddr_add s rn offset, toNat_offAddr_sub s rn offset⟩,
    fun _ _ _ _ => ⟨rfl, rfl, rfl, rfl⟩,
    fun p u w rn offset t => ⟨fun h => lsBase_of_writesBack (lsWritesBack_eq_true.mpr h), ?_⟩⟩
  rintro ⟨hp, hw⟩
  exact lsBase_of_not_writesBack (by simp [lsWritesBack_eq_true, hp, hw])

/-! ## A load of the program counter -/

theorem lsLoad_faultsWith {width : Width} {extend : Word → Word} {p u w : Bool} {rn rd : Reg} {offset : Word}
    {s : State} {k : FaultKind} (h : accessFault s (lsAddr s p u rn offset) width = some k) :
    faultsWith k s (lsLoad width extend p u w rn rd offset s) := by
  simpa [lsLoad, memRead_error.mpr h] using raise_faultsWith k s

/-- A word loaded to register 15 goes to the program counter, masked to a word boundary (10_state.md R25). -/
theorem lsLoad_pc {p u w : Bool} {rn : Reg} {offset : Word} {s : State}
    (h : accessFault s (lsAddr s p u rn offset) .word = none) :
    lsLoad .word extendZero p u w rn pcReg offset s =
      .next ((lsBase s p u w rn offset s).setPc (memValue s.mem (lsAddr s p u rn offset).toNat .word &&& wordMask)) :=
  lsLoad_next.mpr ⟨h, rfl⟩

/-- The rows that allow Rd = 15 refuse exactly the write-backs to register 15 and to Rd (60_exceptions.md R463). -/
theorem lsRefused_pcAllowed (p w : Bool) (rn rd : Reg) :
    lsRefused true p w rn rd = ((!p || w) && (rn == pcReg || rn == rd)) := by
  simp [lsRefused, lsWritesBack]

section
variable {c : Cond} {p u w : Bool} {rn rd : Reg} {s : State}

theorem exec_ldrImm (hc : condPassed c s = true) {imm12 : BitVec 12}
    (hr : refusedCombination (.ldrImm c p u w rn rd imm12) = false) :
    exec (.ldrImm c p u w rn rd imm12) s = lsLoad .word extendZero p u w rn rd (offsetImm12 imm12) s :=
  (whenPassed_true hc).trans (unlessRefused_false ((lsRefused_pcAllowed p w rn rd).trans hr))

theorem exec_ldrReg (hc : condPassed c s = true) {amount : BitVec 5} {sh : ShiftType} {rm : Reg}
    (hr : refusedCombination (.ldrReg c p u w rn rd amount sh rm) = false) :
    exec (.ldrReg c p u w rn rd amount sh rm) s =
      lsLoad .word extendZero p u w rn rd (offsetScaled s amount sh rm) s :=
  (whenPassed_true hc).trans (unlessRefused_false (by rw [lsRegRefused, lsRefused_pcAllowed]; exact hr))

end

/-- Settles O26: both forms are the same load once neither the condition nor the refusal stops them. -/
theorem wideLoadToPc : Obligations.WideLoadToPc := by
  intro c p u w rn s hc
  refine ⟨fun imm12 hr => ?_, fun amount sh rm hr => ?_⟩
  · rw [exec_ldrImm hc hr]
    exact ⟨lsLoad_pc, fun _ => lsLoad_faultsWith⟩
  · rw [exec_ldrReg hc hr]
    exact ⟨lsLoad_pc, fun _ => lsLoad_faultsWith⟩

/-! ## One step -/

theorem step_of_not_running {s : State} (h : s.run ≠ .running) : step s = .fault (.notRunning s) := by
  unfold step
  split
  · exact absurd ‹_› h
  · rfl

theorem step_of_decoded {s : State} {w : Word} {i : Instr} (hrun : s.run = .running) (hf : fetch s = .ok w)
    (hd : decode (codeOfFetched s.mode w) = .ok i) : step s = exec i (advance s w) := by
  simp only [step, hrun, hf, execFetched, hd]

theorem advance_pc (s : State) (w : Word) :
    (advance s w).pc = s.pc + BitVec.ofNat 32 s.mode.instrWidth.bytes := State.pc_setPc _ _

theorem advance_reg (s : State) (w : Word) {r : Reg} (h : r ≠ pcReg) : (advance s w).reg r = s.reg r := by
  simp [advance, h]

/-- Settles O7: that step answers this fault is the model's choice (log entry 13). -/
theorem stoppedHasNoMove : Obligations.StoppedHasNoMove := fun _ => step_of_not_running

/-- Settles O4: the fields are those of `advance`, the program counter by the width of the mode. -/
theorem stepRunsDecoded : Obligations.StepRunsDecoded := by
  intro s w i hrun hf hd _
  refine ⟨step_of_decoded hrun hf hd, rfl, rfl, ?_, fun _ => advance_reg s w, rfl, rfl, rfl, rfl, rfl, rfl, rfl, rfl⟩
  rw [advance_pc]
  cases s.mode <;> rfl

end Sys2Proof.Machine

/-! What an instruction does to memory when it completes, and the state it leaves when it faults: one statement about
every outcome, from which the frame of memory, the precise fault and the invariant are read off. -/

namespace Sys2Proof.Machine

/-! ## Memory changed by some accesses only -/

/-- From `s` to `t` no byte outside some accesses changes, and the canonical form of memory stays. -/
structure StoresOnly (accesses : List (Word × Width)) (s t : State) : Prop where
  outside_kept : ∀ b, outside accesses b → memGet t.mem b = memGet s.mem b
  wf_kept : memWf s.mem = true → memWf t.mem = true

section
variable {accesses : List (Word × Width)} {s t u : State}

theorem StoresOnly.of_mem_eq (h : t.mem = s.mem) : StoresOnly accesses s t :=
  ⟨fun _ _ => by rw [h], fun hw => by rw [h]; exact hw⟩

theorem StoresOnly.congr (h : StoresOnly accesses s t) (hu : u.mem = t.mem) : StoresOnly accesses s u :=
  ⟨fun b hb => by rw [hu, h.outside_kept b hb], fun hw => by rw [hu]; exact h.wf_kept hw⟩

end

theorem storesOnly_of_store {s t : State} {a v : Word} {w : Width} (ha : accessFault s a w = none)
    (ht : t.mem = memStore s.mem a.toNat v w) : StoresOnly [(a, w)] s t := by
  refine StoresOnly.congr (t := s.setMem (memStore s.mem a.toNat v w)) ⟨fun b hb => ?_, fun hw => ?_⟩ ht
  · exact memGet_memStore_outside (hb (a, w) List.mem_cons_self)
  · exact memWf_memWrite (memWrite_ok.mpr ⟨ha, rfl⟩) hw

/-! ## Outcomes -/

/-- An outcome of an instruction begun in `s`: one that completes has stored by some accesses only, and one that
faults leaves `s` with the run state of the fault (60_exceptions.md R441, R444). -/
def Contained (accesses : List (Word × Width)) (s : State) : Out → Prop
  | .next t => StoresOnly accesses s t
  | .fault f => ∃ k, faultKind f = some k ∧ faultFinal f = s.setRun (.faulted k)
  | .refused _ => True

section
variable {accesses : List (Word × Width)} {s t : State}

theorem next_contained (h : t.mem = s.mem) : Contained accesses s (.next t) := StoresOnly.of_mem_eq h

theorem raise_contained (k : FaultKind) : Contained accesses s (raise k s) := by
  obtain ⟨f, e, hk, hs⟩ := raise_faultsWith k s
  rw [e]
  exact ⟨k, hk, hs⟩

theorem unimplemented_contained : Contained accesses s (unimplemented s) := raise_contained _

theorem undefined_contained : Contained accesses s (undefined s) := raise_contained _

theorem whenPassed_contained {c : Cond} {e : Out} (h : Contained accesses s e) :
    Contained accesses s (whenPassed c s e) := by
  unfold whenPassed
  split
  · exact h
  · exact next_contained rfl

theorem unlessRefused_contained {b : Bool} {e : Out} (h : Contained accesses s e) :
    Contained accesses s (unlessRefused b s e) := by
  unfold unlessRefused
  split
  · exact trivial
  · exact h

/-! ## The operations without a memory access -/

theorem aluFlags_mem (r : AluOut) (s : State) : (aluFlags r s).mem = s.mem := by cases r <;> rfl

theorem dpWrite_contained {sf : Bool} {rd : Reg} {r : AluOut} : Contained accesses s (dpWrite sf rd r s) := by
  unfold dpWrite
  split
  · cases sf
    · exact next_contained rfl
    · exact unimplemented_contained
  · cases sf
    · exact next_contained rfl
    · exact next_contained (aluFlags_mem r _)

theorem dpCompare_contained {rd : Reg} {r : AluOut} : Contained accesses s (dpCompare rd r s) := by
  unfold dpCompare
  split
  · exact unimplemented_contained
  · exact next_contained (aluFlags_mem r s)

theorem exchangeFromWide_contained {target : Word} {linked : State} (h : linked.mem = s.mem) :
    Contained accesses s (exchangeFromWide target linked s) := by
  unfold exchangeFromWide
  split
  · split
    · exact next_contained h
    · exact raise_contained _
  · exact next_contained h

theorem exchangeFromCompact_contained {target : Word} {linked : State} (h : linked.mem = s.mem) :
    Contained accesses s (exchangeFromCompact target linked) := by
  refine next_contained ?_
  split <;> exact h

theorem highWrite_contained {rd : Reg} {v : Word} : Contained accesses s (highWrite rd v s) := by
  unfold highWrite
  split <;> exact next_contained rfl

/-! ## The operations with one memory access -/

theorem lsBase_mem (s : State) (p u w : Bool) (rn : Reg) (offset : Word) (t : State) :
    (lsBase s p u w rn offset t).mem = t.mem := by
  unfold lsBase
  split <;> rfl

theorem lsWriteRd_mem (s : State) (rd : Reg) (v : Word) : (lsWriteRd s rd v).mem = s.mem := by
  unfold lsWriteRd
  split <;> rfl

theorem lsLoad_contained {width : Width} {extend : Word → Word} {p u w : Bool} {rn rd : Reg} {offset : Word} :
    Contained accesses s (lsLoad width extend p u w rn rd offset s) := by
  unfold lsLoad
  split
  · exact raise_contained _
  · exact next_contained ((lsWriteRd_mem ..).trans (lsBase_mem ..))

theorem lsStore_contained {width : Width} {p u w : Bool} {rn rd : Reg} {offset : Word} :
    Contained [(lsAddr s p u rn offset, width)] s (lsStore width p u w rn rd offset s) := by
  unfold lsStore
  split
  · exact raise_contained _
  · rename_i e
    obtain ⟨ha, rfl⟩ := memWrite_ok.mp e
    exact storesOnly_of_store ha (lsBase_mem ..)

theorem compactLoad_contained {width : Width} {extend : Word → Word} {rd : LowReg} {addr : Word} :
    Contained accesses s (compactLoad width extend rd addr s) := by
  unfold compactLoad
  split
  · exact raise_contained _
  · exact next_contained rfl

theorem compactStore_contained {width : Width} {rd : LowReg} {addr : Word} :
    Contained [(addr, width)] s (compactStore width rd addr s) := by
  unfold compactStore
  split
  · exact raise_contained _
  · rename_i e
    obtain ⟨ha, rfl⟩ := memWrite_ok.mp e
    exact storesOnly_of_store ha rfl

end

/-! ## The instructions of at most one access -/

/-- The cases are grouped by the shared operation that ends the instruction. -/
theorem exec_contained {i : Instr} {s : State} (h : mayStopPartway i = false) :
    Contained (storesTo i s) s (exec i s) := by
  cases i with
  | andImm | andReg | eorImm | eorReg | subImm | subReg | rsbImm | rsbReg | addImm | addReg | adcImm | adcReg
  | sbcImm | sbcReg | rscImm | rscReg | orrImm | orrReg | movImm | movReg | bicImm | bicReg | mvnImm | mvnReg =>
    exact whenPassed_contained dpWrite_contained
  | andRsr | eorRsr | subRsr | rsbRsr | addRsr | adcRsr | sbcRsr | rscRsr | orrRsr | movRsr | bicRsr | mvnRsr =>
    exact whenPassed_contained (unlessRefused_contained dpWrite_contained)
  | tstImm | tstReg | teqImm | teqReg | cmpImm | cmpReg | cmnImm | cmnReg =>
    exact whenPassed_contained dpCompare_contained
  | tstRsr | teqRsr | cmpRsr | cmnRsr => exact whenPassed_contained (unlessRefused_contained dpCompare_contained)
  | mrs c saved rd =>
    refine whenPassed_contained (unlessRefused_contained ?_)
    cases saved with
    | true => exact unimplemented_contained
    | false => exact next_contained rfl
  | clz => exact whenPassed_contained (unlessRefused_contained (next_contained rfl))
  | mul c sf rd rs rm =>
    refine whenPassed_contained (unlessRefused_contained (next_contained ?_))
    cases sf <;> rfl
  | bx => exact whenPassed_contained (exchangeFromWide_contained rfl)
  | blxReg => exact whenPassed_contained (unlessRefused_contained (exchangeFromWide_contained rfl))
  | msrReg | msrImm | bxj | qadd | qsub | qdadd | qdsub | bkpt | smlaXY | smlawSmulw | smlalXY | smulXY | mla | umaal
  | umull | umlal | smull | smlal | swp | swpb | strex | ldrex | ldrdImm | ldrdReg | strdImm | strdReg | ldrshImm
  | media | stm | ldm | copMem | copReg => exact whenPassed_contained unimplemented_contained
  | ldrhImm | ldrsbImm | ldrImm | ldrtImm | ldrbImm | ldrbtImm | ldrhReg | ldrsbReg | ldrshReg | ldrReg | ldrtReg
  | ldrbReg | ldrbtReg => exact whenPassed_contained (unlessRefused_contained lsLoad_contained)
  | strhImm | strImm | strtImm | strbImm | strbtImm | strhReg | strReg | strtReg | strbReg | strbtReg =>
    exact whenPassed_contained (unlessRefused_contained lsStore_contained)
  | b | bl | swiOther | cBcond => exact whenPassed_contained (next_contained rfl)
  | cLslImm | cLsrImm | cAsrImm | cLsl | cLsr | cAsr | cRor | cAddReg | cSubReg | cAddImm3 | cSubImm3 | cAddImm8
  | cSubImm8 | cAdc | cSbc | cNeg | cMovImm8 | cAnd | cEor | cOrr | cMul | cBic | cMvn | cCmpImm8 | cCmp | cCmn
  | cCmpHi | cTst | cAddPc | cAddSp | cAddSpImm | cSubSpImm | cSxth | cSxtb | cUxth | cUxtb | cRev | cRev16 | cRevsh
  | cB | cBlPrefix | cBlSuffix => exact next_contained rfl
  | cAddHi | cMovHi => exact highWrite_contained
  | cBx => exact exchangeFromCompact_contained rfl
  | cBlxReg => exact unlessRefused_contained (exchangeFromCompact_contained rfl)
  | cLdrLit | cLdrsbReg | cLdrReg | cLdrhReg | cLdrbReg | cLdrshReg | cLdrImm | cLdrbImm | cLdrhImm | cLdrSp =>
    exact compactLoad_contained
  | cStrReg | cStrhReg | cStrbReg | cStrImm | cStrbImm | cStrhImm | cStrSp => exact compactStore_contained
  | cSetend | cCps | cBkpt | cSwiOther | cBlxSuffix => exact unimplemented_contained
  | cRevUnalloc | cBcond1110 => exact undefined_contained
  | cPush | cPop | cStmia | cLdmia | swiTrap | cSwiTrap => cases h

/-! ## The instructions of several accesses -/

section
variable {s t u : State}

theorem listRegs_length_lt (list : BitVec 8) : (listRegs list).length < 2 ^ 20 :=
  Nat.lt_of_le_of_lt (List.length_filter_le _ _) (by decide)

theorem pushRegs_length_lt (lr : Bool) (list : BitVec 8) : (pushRegs lr list).length < 2 ^ 20 := by
  have listed : (listRegs list).length ≤ 8 := List.length_filter_le _ _
  have link : (if lr then [lrReg] else []).length ≤ 1 := by cases lr <;> decide
  rw [pushRegs, List.length_append]
  omega

/-- Registers that are all stored change the ascending words only. -/
theorem storeRegs_storesOnly {regs : List Reg} (hn : regs.length < 2 ^ 20) {a b : Word}
    (h : storeRegs regs a s = .done b u) : StoresOnly (wordsFrom a regs.length) s u := by
  obtain ⟨k, m, -, -, -, hout, ⟨rfl, c, e⟩ | ⟨-, kind, -, e⟩⟩ := storeRegs_spec regs hn a s
  · have hu := h
    rw [e] at hu
    cases hu
    exact ⟨hout, fun hw => (storeRegs_wf regs hw).1 h⟩
  · rw [h] at e
    cases e

theorem loadRegs_mem {regs : List Reg} {a b : Word} (h : loadRegs regs a s = .done b u) : u.mem = s.mem := by
  obtain ⟨f, -, ⟨c, e⟩ | ⟨k, e⟩⟩ := loadRegs_regs regs a s
  · rw [h] at e
    cases e
    rfl
  · rw [h] at e
    cases e

theorem execCPush_storesOnly {lr : Bool} {list : BitVec 8} (h : execCPush lr list s = .next t) :
    StoresOnly (wordsFrom (pushStart s lr list) (pushRegs lr list).length) s t := by
  unfold execCPush at h
  split at h
  · simp at h
  · rename_i e
    cases h
    exact (storeRegs_storesOnly (pushRegs_length_lt lr list) e).congr rfl

theorem execCStmia_storesOnly {rn : LowReg} {list : BitVec 8} (h : execCStmia rn list s = .next t) :
    StoresOnly (wordsFrom (readLow s rn) (listRegs list).length) s t := by
  unfold execCStmia at h
  split at h
  · simp at h
  · rename_i e
    cases h
    exact (storeRegs_storesOnly (listRegs_length_lt list) e).congr rfl

theorem execCLdmia_mem {rn : LowReg} {list : BitVec 8} (h : execCLdmia rn list s = .next t) : t.mem = s.mem := by
  unfold execCLdmia at h
  split at h
  · simp at h
  · rename_i e
    cases h
    exact (State.setReg_mem ..).trans (loadRegs_mem e)

theorem popPc_mem {addr : Word} (h : popPc addr s = .next t) : t.mem = s.mem := by
  obtain ⟨-, ⟨-, rfl⟩ | ⟨-, -, rfl⟩⟩ := popPc_next.mp h <;> rfl

theorem execCPop_mem {pc : Bool} {list : BitVec 8} (h : execCPop pc list s = .next t) : t.mem = s.mem := by
  unfold execCPop at h
  split at h
  · simp at h
  · rename_i e
    cases pc with
    | false =>
      cases h
      exact (State.setReg_mem ..).trans (loadRegs_mem e)
    | true => exact (popPc_mem h).trans (loadRegs_mem e)

/-- The writes of the shim change no byte outside them. -/
theorem memGet_shimMemory_outside (l : List ShimAccess) {b : Nat} : outside (shimWrites l) b → ∀ m : Memory,
    memGet (shimMemory l m) b = memGet m b := by
  induction l with
  | nil => exact fun _ _ => rfl
  | cons x rest ih =>
    intro hb m
    cases x with
    | read addr w => exact ih hb m
    | write addr w v =>
      have first : b < addr.toNat ∨ addr.toNat + w.bytes ≤ b := hb (addr, w) List.mem_cons_self
      exact (ih (fun x hx => hb x (List.mem_cons_of_mem _ hx)) _).trans (memGet_memStore_outside first)

theorem shimAccesses_storesOnly {l : List ShimAccess} {a : Word} (h : shimAccesses l s = .done a u) :
    StoresOnly (shimWrites l) s u := by
  refine ⟨fun b hb => ?_, fun hw => (shimAccesses_wf l hw).1 h⟩
  rcases shimAllowed_or_first s l with ha | ⟨before, x, after, k, rfl, ha, hx⟩
  · obtain ⟨c, e⟩ := shimAccesses_allowed l s ha
    rw [h] at e
    cases e
    exact memGet_shimMemory_outside l hb s.mem
  · rw [shimAccesses_stopped before after x k s ha hx] at h
    cases h

theorem trap_storesOnly (h : trap s = .next t) : StoresOnly (shimWrites (shimReply s).accesses) s t := by
  unfold trap applyReply at h
  split at h
  · simp at h
  · rename_i a u e
    have hu : StoresOnly (shimWrites (shimReply s).accesses) s u :=
      have ⟨hout, hwf⟩ := shimAccesses_storesOnly e
      ⟨hout, hwf⟩
    split at h <;> cases h <;> exact hu.congr rfl

/-- Every instruction that completes has stored by its accesses only. -/
theorem exec_storesOnly {i : Instr} (h : exec i s = .next t) : StoresOnly (storesTo i s) s t := by
  cases hp : mayStopPartway i with
  | false =>
    have hc := exec_contained (s := s) hp
    rw [h] at hc
    exact hc
  | true =>
    unfold mayStopPartway at hp
    split at hp
    · exact execCPush_storesOnly h
    · exact .of_mem_eq (execCPop_mem h)
    · exact execCStmia_storesOnly h
    · exact .of_mem_eq (execCLdmia_mem h)
    · unfold isTrap at hp
      split at hp
      · rcases whenPassed_next.mp h with ⟨-, h⟩ | ⟨-, rfl⟩
        · exact trap_storesOnly h
        · exact .of_mem_eq rfl
      · exact trap_storesOnly h
      · cases hp

end

/-! ## The statements -/

/-- Settles O33: an instruction of at most one access raises its fault in the state it began in. -/
theorem faultIsPrecise : Obligations.FaultIsPrecise := by
  intro i s f hp h
  have hc := exec_contained (s := s) hp
  rw [h] at hc
  exact hc

/-- Settles O41: the accesses of `storesTo` are the only ones an instruction stores by. -/
theorem frameMemory : Obligations.FrameMemory := fun _ _ _ h => (exec_storesOnly h).outside_kept

/-- A step that answers a next state keeps the canonical form of memory. -/
theorem memWf_of_stepsTo {s t : State} (h : StepsTo s t) (hw : memWf s.mem = true) : memWf t.mem = true := by
  obtain ⟨-, w, -, ⟨i, -, he⟩ | ⟨e, -, rfl⟩⟩ := step_next h
  · exact (exec_storesOnly he).wf_kept hw
  · exact hw

/-- Settles O35: the stores of a step keep memory canonical, and no step writes the table or the constants. -/
theorem stepKeepsInv : Obligations.StepKeepsInv := by
  rintro s t ⟨hmem, htable⟩ h
  obtain ⟨-, hsegs, hparams⟩ := sameConfiguration_of_stepsTo h
  refine ⟨memWf_of_stepsTo h hmem, ?_⟩
  rwa [hsegs, hparams]

end Sys2Proof.Machine

/-! The checks of fetches and data accesses, the segment an address lies in, and a written value read back. -/

namespace Sys2Proof.Machine

theorem width_bytes_pos (w : Width) : 0 < w.bytes := by cases w <;> decide

theorem not_aligned_iff {a : Word} {w : Width} : aligned a w = false ↔ a.toNat % w.bytes ≠ 0 := by
  rw [Bool.eq_false_iff, ne_eq, aligned_iff]

theorem fits_iff {s : State} {k : SegmentKind} {a : Word} {w : Width} : fits s k a w = true ↔
    a.toNat + w.bytes ≤ (segmentOf s.segs s.params k).base + (segmentOf s.segs s.params k).size :=
  decide_eq_true_iff

/-! ## Fetch -/

section
variable {s : State}

/-- An instruction that begins in the code segment and ends in it (20_memory.md R64). -/
theorem resolve_code_fits_iff {w : Width} : resolve s s.pc.toNat = some .code ∧ fits s .code s.pc w = true ↔
    s.segs.code.base ≤ s.pc.toNat ∧ s.pc.toNat + w.bytes ≤ s.segs.code.base + s.segs.code.size := by
  have := width_bytes_pos w
  rw [resolve_code, fits_iff]
  constructor
  · rintro ⟨⟨hb, -⟩, he⟩
    exact ⟨hb, he⟩
  · rintro ⟨hb, he⟩
    exact ⟨⟨hb, by omega⟩, he⟩

theorem fetch_misaligned (h : aligned s.pc s.mode.instrWidth = false) : fetch s = .error (.alignmentFault s.pc) :=
  if_neg (by simp [h])

theorem fetch_outside_code (ha : aligned s.pc s.mode.instrWidth = true)
    (h : ¬ (resolve s s.pc.toNat = some .code ∧ fits s .code s.pc s.mode.instrWidth = true)) :
    fetch s = .error (.segmentFault s.pc) := by
  unfold fetch
  rw [if_pos ha]
  split
  · rename_i hr
    exact if_neg fun hf => h ⟨hr, hf⟩
  · rfl

theorem step_of_fetch_error {k : FaultKind} (hrun : s.run = .running) (hf : fetch s = .error k) :
    step s = raise k s := by
  simp only [step, hrun, hf]

theorem step_faultsWith_of_fetch_error {k : FaultKind} (hrun : s.run = .running) (hf : fetch s = .error k) :
    faultsWith k s (step s) := by
  rw [step_of_fetch_error hrun hf]
  exact raise_faultsWith k s

end

/-- Settles O5: the three clauses are the alignment, the code segment, and the value of the fetched bytes. -/
theorem fetchChecks : Obligations.FetchChecks := by
  intro s hrun
  refine ⟨fun ha => ?_, fun ha hc => ?_, fun ha hb he => ?_⟩
  · exact step_faultsWith_of_fetch_error hrun (fetch_misaligned (not_aligned_iff.mpr ha))
  · rw [← resolve_code_fits_iff] at hc
    exact step_faultsWith_of_fetch_error hrun (fetch_outside_code (aligned_iff.mpr ha) hc)
  · obtain ⟨hr, hf⟩ := resolve_code_fits_iff.mpr ⟨hb, he⟩
    refine fetch_ok.mpr ⟨aligned_iff.mpr ha, hr, hf, ?_⟩
    generalize s.mode = m
    cases m <;> rfl

/-! ## Data accesses -/

section
variable {s : State} {a : Word} {w : Width}

theorem accessFault_misaligned (h : a.toNat % w.bytes ≠ 0) : accessFault s a w = some (.alignmentFault a) :=
  if_neg (by rwa [aligned_iff])

theorem accessFault_unmapped (ha : a.toNat % w.bytes = 0) (hr : resolve s a.toNat = none) :
    accessFault s a w = some (.segmentFault a) := by
  simp [accessFault, aligned_iff.mpr ha, hr]

theorem accessFault_overrun {k : SegmentKind} (ha : a.toNat % w.bytes = 0) (hr : resolve s a.toNat = some k)
    (hf : ¬ fits s k a w = true) : accessFault s a w = some (.segmentFault a) := by
  simp [accessFault, aligned_iff.mpr ha, hr, hf]

/-- Both accessors raise the fault of the checks. -/
theorem access_error {k : FaultKind} (h : accessFault s a w = some k) (v : Word) :
    memRead s a w = .error k ∧ memWrite s a v w = .error k :=
  ⟨memRead_error.mpr h, memWrite_error.mpr h⟩

end

/-- Settles O8: each clause is one outcome of the checks, which both accessors make. -/
theorem accessChecks : Obligations.AccessChecks := by
  intro s a v w
  refine ⟨fun ha => ?_, fun ha hr => ?_, fun k ha hr he => ?_, fun k ha hr he => ?_⟩
  · exact access_error (accessFault_misaligned ha) v
  · exact access_error (accessFault_unmapped ha hr) v
  · exact access_error (accessFault_overrun ha hr (by rw [fits_iff]; omega)) v
  · have passed : accessFault s a w = none := accessFault_none.mpr ⟨aligned_iff.mpr ha, k, hr, fits_iff.mpr he⟩
    exact ⟨memRead_ok.mpr ⟨passed, rfl⟩, memWrite_ok.mpr ⟨passed, rfl⟩⟩

/-! ## The segment of an address -/

section
variable {s : State} {a : Nat}

theorem resolve_none_iff : resolve s a = none ↔ ∀ k, ¬ segOwns (segmentOf s.segs s.params k) a = true :=
  List.find?_eq_none.trans ⟨fun h k => h k (mem_allKinds k), fun h k _ => h k⟩

/-- The first segment that owns an address is the only one, so the order of the tests plays no part. -/
theorem resolve_eq_some_iff (h : tableWf s.segs s.params = true) {k : SegmentKind} :
    resolve s a = some k ↔ segOwns (segmentOf s.segs s.params k) a = true := by
  refine ⟨resolve_some, fun hk => ?_⟩
  cases hr : resolve s a with
  | none => exact absurd hk (resolve_none_iff.mp hr k)
  | some j =>
    have only : segOwns (segmentOf s.segs s.params k) a = decide (k = j) := segOwns_eq_of_resolve h hr k
    rw [hk] at only
    rw [of_decide_eq_true only.symm]

end

theorem stackSize_le_of_tableWf {t : SegmentTable} {p : Params} (h : tableWf t p = true) :
    p.stackSize ≤ p.stackTop.toNat := by
  simp only [tableWf, stackWf, Bool.and_eq_true, decide_eq_true_eq] at h
  obtain ⟨⟨⟨⟨-, hle⟩, -⟩, -⟩, -⟩ := h
  exact hle

theorem segOwns_stack_iff {t : SegmentTable} {p : Params} {a : Nat} (h : p.stackSize ≤ p.stackTop.toNat) :
    segOwns (segmentOf t p .stack) a = true ↔ p.stackTop.toNat - p.stackSize ≤ a ∧ a < p.stackTop.toNat := by
  rw [segOwns_iff]
  simp only [segmentOf, stackLow]
  omega

theorem segOwns_heap_iff {t : SegmentTable} {p : Params} {a : Nat} :
    segOwns (segmentOf t p .heap) a = true ↔
      t.bss.base + t.bss.size ≤ a ∧ a < p.stackTop.toNat - p.stackSize := by
  rw [segOwns_iff]
  simp only [segmentOf, segEnd, stackLow]
  omega

/-- Settles O9, by the disjointness of the six segments of a well-formed table. -/
theorem resolveExclusive : Obligations.ResolveExclusive := by
  intro s a h
  refine ⟨fun k => (resolve_eq_some_iff h).trans segOwns_iff, ?_, ?_, ?_⟩
  · simp only [resolve_none_iff, segOwns_iff]
  · exact (resolve_eq_some_iff h).trans (segOwns_stack_iff (stackSize_le_of_tableWf h))
  · exact (resolve_eq_some_iff h).trans segOwns_heap_iff

/-! ## A written value read back -/

theorem toNat_byteOfWord (v : Word) (i : Nat) : (byteOfWord v i).toNat = v.toNat / 2 ^ (8 * i) % 256 := by
  rw [byteOfWord, BitVec.extractLsb'_toNat, Nat.shiftRight_eq_div_pow]

/-- An access reads the low `8n` bits of the value it stored. -/
theorem toNat_memValue_memStore (m : Memory) (a : Nat) (v : Word) (w : Width) :
    (memValue (memStore m a v w) a w).toNat = v.toNat % 2 ^ (8 * w.bytes) := by
  have := v.isLt
  rw [memValue_memStore]
  cases w <;> simp only [BitVec.toNat_setWidth, Width.bytes] <;> omega

theorem memGet_memStore_inside (m : Memory) (a : Nat) (v : Word) {w : Width} {j : Nat} (hj : j < w.bytes) :
    memGet (memStore m a v w) (a + j) = byteOfWord v j := by
  rw [memGet_memStore, if_pos ⟨Nat.le_add_right a j, Nat.add_lt_add_left hj a⟩, Nat.add_sub_cancel_left]

/-- Settles O10: a write passes the checks of the read that follows it, since they do not look at the bytes. -/
theorem writeThenRead : Obligations.WriteThenRead := by
  intro s t a v w h
  obtain ⟨hpass, rfl⟩ := memWrite_ok.mp h
  refine ⟨⟨_, memRead_ok.mpr ⟨(accessFault_setMem ..).trans hpass, rfl⟩, toNat_memValue_memStore ..⟩,
    fun j hj => ?_, fun b hb => memGet_memStore_outside hb, rfl⟩
  rw [State.setMem_mem, memGet_memStore_inside _ _ _ hj, toNat_byteOfWord]

/-- A fetch after a store to the instruction at the program counter reads what the store left there. -/
theorem fetch_after_memWrite {s t : State} {v : Word} (h : memWrite s s.pc v s.mode.instrWidth = .ok t)
    (hc : resolve s s.pc.toNat = some .code) :
    fetch t = .ok (memValue (memStore s.mem s.pc.toNat v s.mode.instrWidth) s.pc.toNat s.mode.instrWidth) := by
  obtain ⟨hpass, rfl⟩ := memWrite_ok.mp h
  obtain ⟨ha, k, hk, hf⟩ := accessFault_none.mp hpass
  have code : k = .code := Option.some.inj (hk.symm.trans hc)
  subst code
  exact fetch_ok.mpr ⟨ha, hc, hf, rfl⟩

theorem setWidth_half_eq_and (v : Word) : (v.setWidth 16).setWidth 32 = v &&& 0xFFFF#32 := by
  have mask : v.toNat &&& 65535 = v.toNat % 65536 := Nat.and_two_pow_sub_one_eq_mod v.toNat 16
  apply BitVec.eq_of_toNat_eq
  rw [BitVec.toNat_and, BitVec.toNat_ofNat, mask, BitVec.toNat_setWidth, BitVec.toNat_setWidth]
  omega

/-- Settles O11: the instruction width is the width of the store in both modes. -/
theorem storeReachesFetch : Obligations.StoreReachesFetch := by
  intro s t v
  constructor
  · intro hm h hc
    rw [fetch_after_memWrite (by rwa [hm]) hc, hm, memValue_memStore]
  · intro hm h hc
    rw [fetch_after_memWrite (by rwa [hm]) hc, hm, memValue_memStore, setWidth_half_eq_and]

end Sys2Proof.Machine

/-! The fields of a word and of each encoding format, and the two decoders as inverses of the encoder: first which
fields a word of each format has, then that a decoded word is the word of its instruction, then the converse. -/

namespace Sys2Proof

-- One proof at a time: elaborated in parallel they need more threads than the checker's memory limit admits.
set_option Elab.async false

/-! ## Fields of a word -/

theorem field_full {n : Nat} (w : BitVec n) : field w 0 n = w := by simp [field]

theorem bit_field {n : Nat} (w : BitVec n) {lo len i : Nat} (hi : i < len) :
    bit (field w lo len) i = bit w (lo + i) := by simp [bit, field, hi]

theorem field_field {n : Nat} (w : BitVec n) {lo len a k : Nat} (h : a + k ≤ len) :
    field (field w lo len) a k = field w (lo + a) k := by
  refine BitVec.eq_of_getLsbD_eq fun i hi => ?_
  have inside : a + i < len := by omega
  simp only [field, BitVec.getLsbD_extractLsb', hi, inside, decide_true, Bool.true_and, Nat.add_assoc]

/-- Adjacent fields are one field. -/
theorem field_append_field {k : Nat} (w : BitVec k) (lo n m : Nat) :
    field w (lo + m) n ++ field w lo m = field w lo (n + m) := by
  refine BitVec.eq_of_getLsbD_eq fun i hi => ?_
  simp only [field, BitVec.getLsbD_append, BitVec.getLsbD_extractLsb']
  by_cases h : i < m
  · simp [h, hi]
  · have place : lo + m + (i - m) = lo + i := by omega
    have inside : i - m < n := by omega
    simp [h, hi, inside, place]

theorem field_append_upper {n m : Nat} (x : BitVec n) (y : BitVec m) : field (x ++ y) m n = x :=
  BitVec.eq_of_getLsbD_eq fun i hi => by simp [field, BitVec.getLsbD_append, hi]

theorem field_append_lower {n m : Nat} (x : BitVec n) (y : BitVec m) : field (x ++ y) 0 m = y :=
  BitVec.eq_of_getLsbD_eq fun i hi => by simp [field, BitVec.getLsbD_append, hi]

/-- A field is a concatenation exactly when its two parts are. -/
theorem field_eq_append_iff {k n m : Nat} (w : BitVec k) (lo : Nat) (x : BitVec n) (y : BitVec m) :
    field w lo (n + m) = x ++ y ↔ field w (lo + m) n = x ∧ field w lo m = y := by
  constructor
  · intro h
    have upper := congrArg (field · m n) h
    have lower := congrArg (field · 0 m) h
    simp only [field_append_upper, field_append_lower] at upper lower
    rw [field_field w (by omega)] at upper lower
    exact ⟨upper, lower⟩
  · rintro ⟨rfl, rfl⟩
    exact (field_append_field w lo n m).symm

theorem field_join {k n m : Nat} {w : BitVec k} {lo : Nat} {x : BitVec n} {y : BitVec m}
    (hx : field w (lo + m) n = x) (hy : field w lo m = y) : field w lo (n + m) = x ++ y :=
  (field_eq_append_iff w lo x y).mpr ⟨hx, hy⟩

/-- A known field fixes every field inside it. -/
theorem field_inside {k len : Nat} {w : BitVec k} {lo : Nat} {v : BitVec len} (h : field w lo len = v) (a n : Nat)
    (ha : a + n ≤ len := by decide) : field w (lo + a) n = field v a n := by rw [← h, field_field w ha]

/-- A known field fixes every bit inside it. -/
theorem bit_inside {k len : Nat} {w : BitVec k} {lo : Nat} {v : BitVec len} (h : field w lo len = v) (i : Nat)
    (hi : i < len := by decide) : bit w (lo + i) = bit v i := by rw [← h, bit_field w hi]

theorem field_one_eq_iff {k : Nat} (w : BitVec k) (i : Nat) (v : BitVec 1) :
    field w i 1 = v ↔ bit w i = bit v 0 := by
  constructor
  · exact fun h => bit_inside h 0
  · intro h
    refine BitVec.eq_of_getLsbD_eq fun j hj => ?_
    obtain rfl : j = 0 := by omega
    simpa [field, bit] using h

theorem field_one_set {k : Nat} {w : BitVec k} {i : Nat} (h : bit w i = true) : field w i 1 = 0b1#1 :=
  (field_one_eq_iff w i 0b1#1).mpr h

theorem field_one_clear {k : Nat} {w : BitVec k} {i : Nat} (h : bit w i = false) : field w i 1 = 0b0#1 :=
  (field_one_eq_iff w i 0b0#1).mpr h

theorem bit_ofBool (b : Bool) : bit (BitVec.ofBool b) 0 = b := by cases b <;> rfl

theorem bit_zero : bit 0#1 0 = false := rfl

theorem bit_one : bit 1#1 0 = true := rfl

theorem eq_cond_toBits_iff {b : BitVec 4} {c : Cond} : b = c.toBits ↔ Cond.ofBits b = some c := by
  constructor
  · rintro rfl
    cases c <;> rfl
  · intro h
    unfold Cond.ofBits at h
    split at h <;> cases h <;> rfl

theorem eq_shiftType_toBits_iff {b : BitVec 2} {sh : ShiftType} : b = sh.toBits ↔ ShiftType.ofBits b = sh := by
  constructor
  · rintro rfl
    cases sh <;> rfl
  · rintro rfl
    revert b
    decide

theorem two_bit_cases : ∀ b : BitVec 2, b = 0b00#2 ∨ b = 0b01#2 ∨ b = 0b10#2 ∨ b = 0b11#2 := by decide

theorem four_bit_cases : ∀ b : BitVec 4, b = 0x0#4 ∨ b = 0x1#4 ∨ b = 0x2#4 ∨ b = 0x3#4 ∨ b = 0x4#4 ∨ b = 0x5#4 ∨
    b = 0x6#4 ∨ b = 0x7#4 ∨ b = 0x8#4 ∨ b = 0x9#4 ∨ b = 0xA#4 ∨ b = 0xB#4 ∨ b = 0xC#4 ∨ b = 0xD#4 ∨ b = 0xE#4 ∨
    b = 0xF#4 := by decide

theorem wide_eq_wide_iff {x w : Word} : Code.wide x = .wide w ↔ field w 0 32 = x := by
  rw [Code.wide.injEq, field_full, eq_comm]

theorem compact_eq_compact_iff {x h : Half} : Code.compact x = .compact h ↔ field h 0 16 = x := by
  rw [Code.compact.injEq, field_full, eq_comm]

/-! ## The wide formats: which fields a word of each has (30_encoding.md R94) -/

section
variable {c : Cond} {w : Word}

theorem encDataImm_eq_wide_iff {op : BitVec 4} {sf : Bool} {rn rd : Reg} {rot : BitVec 4} {imm : BitVec 8} :
    encDataImm c op sf rn rd rot imm = .wide w ↔
      Cond.ofBits (field w 28 4) = some c ∧ field w 25 3 = 0b001#3 ∧ field w 21 4 = op ∧ bit w 20 = sf ∧
      field w 16 4 = rn ∧ field w 12 4 = rd ∧ field w 8 4 = rot ∧ field w 0 8 = imm := by
  refine wide_eq_wide_iff.trans ?_
  change field w 0 (4 + 3 + 4 + 1 + 4 + 4 + 4 + 8) = _ ↔ _
  simp only [field_eq_append_iff, field_one_eq_iff, bit_ofBool, eq_cond_toBits_iff, and_assoc]

theorem encDataReg_eq_wide_iff {op : BitVec 4} {sf : Bool} {rn rd : Reg} {amount : BitVec 5} {sh : ShiftType}
    {rm : Reg} : encDataReg c op sf rn rd amount sh rm = .wide w ↔
      Cond.ofBits (field w 28 4) = some c ∧ field w 25 3 = 0b000#3 ∧ field w 21 4 = op ∧ bit w 20 = sf ∧
      field w 16 4 = rn ∧ field w 12 4 = rd ∧ field w 7 5 = amount ∧ ShiftType.ofBits (field w 5 2) = sh ∧
      bit w 4 = false ∧ field w 0 4 = rm := by
  refine wide_eq_wide_iff.trans ?_
  change field w 0 (4 + 3 + 4 + 1 + 4 + 4 + 5 + 2 + 1 + 4) = _ ↔ _
  simp only [field_eq_append_iff, field_one_eq_iff, bit_ofBool, bit_zero, eq_cond_toBits_iff,
    eq_shiftType_toBits_iff, and_assoc]

theorem encDataRsr_eq_wide_iff {op : BitVec 4} {sf : Bool} {rn rd rs : Reg} {sh : ShiftType} {rm : Reg} :
    encDataRsr c op sf rn rd rs sh rm = .wide w ↔
      Cond.ofBits (field w 28 4) = some c ∧ field w 25 3 = 0b000#3 ∧ field w 21 4 = op ∧ bit w 20 = sf ∧
      field w 16 4 = rn ∧ field w 12 4 = rd ∧ field w 8 4 = rs ∧ bit w 7 = false ∧
      ShiftType.ofBits (field w 5 2) = sh ∧ bit w 4 = true ∧ field w 0 4 = rm := by
  refine wide_eq_wide_iff.trans ?_
  change field w 0 (4 + 3 + 4 + 1 + 4 + 4 + 4 + 1 + 2 + 1 + 4) = _ ↔ _
  simp only [field_eq_append_iff, field_one_eq_iff, bit_ofBool, bit_zero, bit_one, eq_cond_toBits_iff,
    eq_shiftType_toBits_iff, and_assoc]

theorem encNibbles_eq_wide_iff {top : BitVec 8} {a b d low m : BitVec 4} :
    encNibbles c top a b d low m = .wide w ↔
      Cond.ofBits (field w 28 4) = some c ∧ field w 20 8 = top ∧ field w 16 4 = a ∧ field w 12 4 = b ∧
      field w 8 4 = d ∧ field w 4 4 = low ∧ field w 0 4 = m := by
  refine wide_eq_wide_iff.trans ?_
  change field w 0 (4 + 8 + 4 + 4 + 4 + 4 + 4) = _ ↔ _
  simp only [field_eq_append_iff, eq_cond_toBits_iff, and_assoc]

theorem encHalfMul_eq_wide_iff {oo : BitVec 2} {a b rs : BitVec 4} {y x : Bool} {rm : Reg} :
    encHalfMul c oo a b rs y x rm = .wide w ↔
      Cond.ofBits (field w 28 4) = some c ∧ field w 23 5 = 0b00010#5 ∧ field w 21 2 = oo ∧ bit w 20 = false ∧
      field w 16 4 = a ∧ field w 12 4 = b ∧ field w 8 4 = rs ∧ bit w 7 = true ∧ bit w 6 = y ∧ bit w 5 = x ∧
      bit w 4 = false ∧ field w 0 4 = rm := by
  refine wide_eq_wide_iff.trans ?_
  change field w 0 (4 + 5 + 2 + 1 + 4 + 4 + 4 + 1 + 1 + 1 + 1 + 4) = _ ↔ _
  simp only [field_eq_append_iff, field_one_eq_iff, bit_ofBool, bit_zero, bit_one, eq_cond_toBits_iff, and_assoc]

theorem encMultiply_eq_wide_iff {kind : BitVec 3} {sf : Bool} {a b rs rm : BitVec 4} :
    encMultiply c kind sf a b rs rm = .wide w ↔
      Cond.ofBits (field w 28 4) = some c ∧ field w 24 4 = 0b0000#4 ∧ field w 21 3 = kind ∧ bit w 20 = sf ∧
      field w 16 4 = a ∧ field w 12 4 = b ∧ field w 8 4 = rs ∧ field w 4 4 = 0b1001#4 ∧ field w 0 4 = rm := by
  refine wide_eq_wide_iff.trans ?_
  change field w 0 (4 + 4 + 3 + 1 + 4 + 4 + 4 + 4 + 4) = _ ↔ _
  simp only [field_eq_append_iff, field_one_eq_iff, bit_ofBool, eq_cond_toBits_iff, and_assoc]

theorem encExtra_eq_wide_iff {p u wb : Bool} {i l : BitVec 1} {rn rd hi : BitVec 4} {sh : BitVec 2} {m : BitVec 4} :
    encExtra c p u i wb l rn rd hi sh m = .wide w ↔
      Cond.ofBits (field w 28 4) = some c ∧ field w 25 3 = 0b000#3 ∧ bit w 24 = p ∧ bit w 23 = u ∧
      bit w 22 = bit i 0 ∧ bit w 21 = wb ∧ bit w 20 = bit l 0 ∧ field w 16 4 = rn ∧ field w 12 4 = rd ∧
      field w 8 4 = hi ∧ bit w 7 = true ∧ field w 5 2 = sh ∧ bit w 4 = true ∧ field w 0 4 = m := by
  refine wide_eq_wide_iff.trans ?_
  change field w 0 (4 + 3 + 1 + 1 + 1 + 1 + 1 + 4 + 4 + 4 + 1 + 2 + 1 + 4) = _ ↔ _
  simp only [field_eq_append_iff, field_one_eq_iff, bit_ofBool, bit_one, eq_cond_toBits_iff, and_assoc]

theorem encLoadStoreImm_eq_wide_iff {p u wb : Bool} {b l : BitVec 1} {rn rd : Reg} {imm12 : BitVec 12} :
    encLoadStoreImm c p u b wb l rn rd imm12 = .wide w ↔
      Cond.ofBits (field w 28 4) = some c ∧ field w 25 3 = 0b010#3 ∧ bit w 24 = p ∧ bit w 23 = u ∧
      bit w 22 = bit b 0 ∧ bit w 21 = wb ∧ bit w 20 = bit l 0 ∧ field w 16 4 = rn ∧ field w 12 4 = rd ∧
      field w 0 12 = imm12 := by
  refine wide_eq_wide_iff.trans ?_
  change field w 0 (4 + 3 + 1 + 1 + 1 + 1 + 1 + 4 + 4 + 12) = _ ↔ _
  simp only [field_eq_append_iff, field_one_eq_iff, bit_ofBool, eq_cond_toBits_iff, and_assoc]

theorem encLoadStoreReg_eq_wide_iff {p u wb : Bool} {b l : BitVec 1} {rn rd : Reg} {amount : BitVec 5}
    {sh : ShiftType} {rm : Reg} : encLoadStoreReg c p u b wb l rn rd amount sh rm = .wide w ↔
      Cond.ofBits (field w 28 4) = some c ∧ field w 25 3 = 0b011#3 ∧ bit w 24 = p ∧ bit w 23 = u ∧
      bit w 22 = bit b 0 ∧ bit w 21 = wb ∧ bit w 20 = bit l 0 ∧ field w 16 4 = rn ∧ field w 12 4 = rd ∧
      field w 7 5 = amount ∧ ShiftType.ofBits (field w 5 2) = sh ∧ bit w 4 = false ∧ field w 0 4 = rm := by
  refine wide_eq_wide_iff.trans ?_
  change field w 0 (4 + 3 + 1 + 1 + 1 + 1 + 1 + 4 + 4 + 5 + 2 + 1 + 4) = _ ↔ _
  simp only [field_eq_append_iff, field_one_eq_iff, bit_ofBool, bit_zero, eq_cond_toBits_iff,
    eq_shiftType_toBits_iff, and_assoc]

theorem encBlock_eq_wide_iff {p u sb wb : Bool} {l : BitVec 1} {rn : Reg} {list : BitVec 16} :
    encBlock c p u sb wb l rn list = .wide w ↔
      Cond.ofBits (field w 28 4) = some c ∧ field w 25 3 = 0b100#3 ∧ bit w 24 = p ∧ bit w 23 = u ∧
      bit w 22 = sb ∧ bit w 21 = wb ∧ bit w 20 = bit l 0 ∧ field w 16 4 = rn ∧ field w 0 16 = list := by
  refine wide_eq_wide_iff.trans ?_
  change field w 0 (4 + 3 + 1 + 1 + 1 + 1 + 1 + 4 + 16) = _ ↔ _
  simp only [field_eq_append_iff, field_one_eq_iff, bit_ofBool, eq_cond_toBits_iff, and_assoc]

theorem encode_mrs_eq_wide_iff {saved : Bool} {rd : Reg} : encode (.mrs c saved rd) = .wide w ↔
      Cond.ofBits (field w 28 4) = some c ∧ field w 23 5 = 0b00010#5 ∧ bit w 22 = saved ∧ field w 20 2 = 0b00#2 ∧
      field w 16 4 = 0b1111#4 ∧ field w 12 4 = rd ∧ field w 0 12 = 0#12 := by
  refine wide_eq_wide_iff.trans ?_
  change field w 0 (4 + 5 + 1 + 2 + 4 + 4 + 12) = _ ↔ _
  simp only [field_eq_append_iff, field_one_eq_iff, bit_ofBool, eq_cond_toBits_iff, and_assoc]

theorem encode_msrReg_eq_wide_iff {saved : Bool} {mask : BitVec 4} {rm : Reg} :
    encode (.msrReg c saved mask rm) = .wide w ↔
      Cond.ofBits (field w 28 4) = some c ∧ field w 23 5 = 0b00010#5 ∧ bit w 22 = saved ∧ field w 20 2 = 0b10#2 ∧
      field w 16 4 = mask ∧ field w 12 4 = 0b1111#4 ∧ field w 4 8 = 0#8 ∧ field w 0 4 = rm := by
  refine wide_eq_wide_iff.trans ?_
  change field w 0 (4 + 5 + 1 + 2 + 4 + 4 + 8 + 4) = _ ↔ _
  simp only [field_eq_append_iff, field_one_eq_iff, bit_ofBool, eq_cond_toBits_iff, and_assoc]

theorem encode_msrImm_eq_wide_iff {saved : Bool} {mask rot : BitVec 4} {imm : BitVec 8} :
    encode (.msrImm c saved mask rot imm) = .wide w ↔
      Cond.ofBits (field w 28 4) = some c ∧ field w 23 5 = 0b00110#5 ∧ bit w 22 = saved ∧ field w 20 2 = 0b10#2 ∧
      field w 16 4 = mask ∧ field w 12 4 = 0b1111#4 ∧ field w 8 4 = rot ∧ field w 0 8 = imm := by
  refine wide_eq_wide_iff.trans ?_
  change field w 0 (4 + 5 + 1 + 2 + 4 + 4 + 4 + 8) = _ ↔ _
  simp only [field_eq_append_iff, field_one_eq_iff, bit_ofBool, eq_cond_toBits_iff, and_assoc]

theorem encode_bkpt_eq_wide_iff {imm12 : BitVec 12} {imm4 : BitVec 4} : encode (.bkpt c imm12 imm4) = .wide w ↔
      Cond.ofBits (field w 28 4) = some c ∧ field w 20 8 = 0b00010010#8 ∧ field w 8 12 = imm12 ∧
      field w 4 4 = 0b0111#4 ∧ field w 0 4 = imm4 := by
  refine wide_eq_wide_iff.trans ?_
  change field w 0 (4 + 8 + 12 + 4 + 4) = _ ↔ _
  simp only [field_eq_append_iff, eq_cond_toBits_iff, and_assoc]

theorem encode_media_eq_wide_iff {hi : BitVec 20} {lo : BitVec 4} : encode (.media c hi lo) = .wide w ↔
      Cond.ofBits (field w 28 4) = some c ∧ field w 25 3 = 0b011#3 ∧ field w 5 20 = hi ∧ bit w 4 = true ∧
      field w 0 4 = lo := by
  refine wide_eq_wide_iff.trans ?_
  change field w 0 (4 + 3 + 20 + 1 + 4) = _ ↔ _
  simp only [field_eq_append_iff, field_one_eq_iff, bit_one, eq_cond_toBits_iff, and_assoc]

/-- The formats with one field below `instr[27:24]`: W-B, the second form of W-COP, W-SWI. -/
theorem wide_imm24_eq_wide_iff {op : BitVec 4} {imm24 : BitVec 24} :
    Code.wide (c.toBits ++ op ++ imm24) = .wide w ↔
      Cond.ofBits (field w 28 4) = some c ∧ field w 24 4 = op ∧ field w 0 24 = imm24 := by
  refine wide_eq_wide_iff.trans ?_
  change field w 0 (4 + 4 + 24) = _ ↔ _
  simp only [field_eq_append_iff, eq_cond_toBits_iff, and_assoc]

theorem encode_copMem_eq_wide_iff {bits : BitVec 25} : encode (.copMem c bits) = .wide w ↔
      Cond.ofBits (field w 28 4) = some c ∧ field w 25 3 = 0b110#3 ∧ field w 0 25 = bits := by
  refine wide_eq_wide_iff.trans ?_
  change field w 0 (4 + 3 + 25) = _ ↔ _
  simp only [field_eq_append_iff, eq_cond_toBits_iff, and_assoc]

end

/-! ## A decoded wide word is the word of its instruction -/

/-- The code is the one of a well-formed instruction. -/
def IsCodeOf (x : Code) (i : Instr) : Prop := i.wellFormed = true ∧ encode i = x

section
variable {c : Cond} {w : Word} {i : Instr}

theorem decodeHalfMul_isCodeOf (hc : Cond.ofBits (field w 28 4) = some c) (hk : field w 23 5 = 0b00010#5)
    (hs : bit w 20 = false) (h7 : bit w 7 = true) (h4 : bit w 4 = false) :
    IsCodeOf (.wide w) (decodeHalfMul c w) := by
  unfold decodeHalfMul
  split
  case h_4 =>
    have hoo : field w 21 2 = 0b11#2 := by
      simp only [imp_false] at *
      bv_omega
    exact ⟨rfl, encHalfMul_eq_wide_iff.mpr ⟨hc, hk, hoo, hs, rfl, rfl, rfl, h7, rfl, rfl, h4, rfl⟩⟩
  all_goals
    rename_i hoo
    exact ⟨rfl, encHalfMul_eq_wide_iff.mpr ⟨hc, hk, hoo, hs, rfl, rfl, rfl, h7, rfl, rfl, h4, rfl⟩⟩

/-- The word of a saturating add or subtract, or of an exchange, from `instr[27:20]` in the miscellaneous space. -/
theorem misc_top {oo : BitVec 2} (hk : field w 23 5 = 0b00010#5) (hoo : field w 21 2 = oo) (hs : bit w 20 = false) :
    field w 20 8 = 0b00010#5 ++ oo ++ 0b0#1 :=
  field_join (field_join hk hoo) (field_one_clear hs)

theorem decodeSaturating_isCodeOf (hc : Cond.ofBits (field w 28 4) = some c) (hk : field w 23 5 = 0b00010#5)
    (hs : bit w 20 = false) (h8 : field w 8 4 = 0#4) (h4 : field w 4 4 = 0b0101#4) :
    IsCodeOf (.wide w) (decodeSaturating c w) := by
  unfold decodeSaturating
  split
  case h_4 =>
    have hoo : field w 21 2 = 0b11#2 := by
      simp only [imp_false] at *
      bv_omega
    exact ⟨rfl, encNibbles_eq_wide_iff.mpr ⟨hc, misc_top hk hoo hs, rfl, rfl, h8, h4, rfl⟩⟩
  all_goals
    rename_i hoo
    exact ⟨rfl, encNibbles_eq_wide_iff.mpr ⟨hc, misc_top hk hoo hs, rfl, rfl, h8, h4, rfl⟩⟩

theorem decodeStatusMove_isCodeOf (hc : Cond.ofBits (field w 28 4) = some c) (hk : field w 23 5 = 0b00010#5)
    (hs : bit w 20 = false) (h4 : field w 4 4 = 0#4) (h : decodeStatusMove c w = .ok i) : IsCodeOf (.wide w) i := by
  have s20 : field w 20 1 = 0b0#1 := field_one_clear hs
  unfold decodeStatusMove at h
  split at h
  next h21 =>
    split at h <;> cases h
    next hf =>
      obtain ⟨h12, h8⟩ := hf
      have h20 : field w 20 2 = 0b10#2 := field_join (field_one_set h21) s20
      exact ⟨rfl, encode_msrReg_eq_wide_iff.mpr ⟨hc, hk, rfl, h20, rfl, h12, field_join h8 h4, rfl⟩⟩
  next h21 =>
    split at h <;> cases h
    next hf =>
      obtain ⟨h16, h8, h0⟩ := hf
      have h20 : field w 20 2 = 0b00#2 :=
        field_join (field_one_clear (Bool.eq_false_iff.mpr h21)) s20
      exact ⟨rfl, encode_mrs_eq_wide_iff.mpr ⟨hc, hk, rfl, h20, h16, rfl, field_join (field_join h8 h4) h0⟩⟩

/-- The three nibbles of ones of BX, BXJ and BLX are one field of twelve ones. -/
theorem ones_iff : field w 8 12 = 0xFFF#12 ↔ field w 16 4 = 0xF#4 ∧ field w 12 4 = 0xF#4 ∧ field w 8 4 = 0xF#4 := by
  change field w 8 (4 + 4 + 4) = 0xF#4 ++ 0xF#4 ++ 0xF#4 ↔ _
  simp only [field_eq_append_iff, and_assoc]

theorem decodeBxClz_isCodeOf (hc : Cond.ofBits (field w 28 4) = some c) (hk : field w 23 5 = 0b00010#5)
    (hs : bit w 20 = false) (h4 : field w 4 4 = 0x1#4) (h : decodeBxClz c w = .ok i) : IsCodeOf (.wide w) i := by
  unfold decodeBxClz at h
  split at h
  next hoo =>
    split at h <;> cases h
    next hf =>
      obtain ⟨h16, h12, h8⟩ := ones_iff.mp hf
      exact ⟨rfl, encNibbles_eq_wide_iff.mpr ⟨hc, misc_top hk hoo hs, h16, h12, h8, h4, rfl⟩⟩
  next hoo =>
    split at h <;> cases h
    next hf =>
      obtain ⟨h16, h8⟩ := hf
      exact ⟨rfl, encNibbles_eq_wide_iff.mpr ⟨hc, misc_top hk hoo hs, h16, rfl, h8, h4, rfl⟩⟩
  next => cases h

theorem decodeMisc_isCodeOf (hc : Cond.ofBits (field w 28 4) = some c) (hk : field w 23 5 = 0b00010#5)
    (hs : bit w 20 = false) (h : decodeMisc c w = .ok i) : IsCodeOf (.wide w) i := by
  unfold decodeMisc at h
  split at h
  next h4 => exact decodeStatusMove_isCodeOf hc hk hs h4 h
  next h4 => exact decodeBxClz_isCodeOf hc hk hs h4 h
  iterate 2
    next h4 =>
      split at h <;> cases h
      next hf =>
        obtain ⟨hoo, hf⟩ := hf
        obtain ⟨h16, h12, h8⟩ := ones_iff.mp hf
        exact ⟨rfl, encNibbles_eq_wide_iff.mpr ⟨hc, misc_top hk hoo hs, h16, h12, h8, h4, rfl⟩⟩
  next h4 =>
    split at h <;> cases h
    next h8 => exact decodeSaturating_isCodeOf hc hk hs h8 h4
  next h4 =>
    split at h <;> cases h
    next hoo => exact ⟨rfl, encode_bkpt_eq_wide_iff.mpr ⟨hc, misc_top hk hoo hs, rfl, h4, rfl⟩⟩
  iterate 4
    next h4 =>
      cases h
      exact decodeHalfMul_isCodeOf hc hk hs (bit_inside h4 3) (bit_inside h4 0)
  next => cases h

theorem decodeMsrImm_isCodeOf (hc : Cond.ofBits (field w 28 4) = some c) (hk : field w 23 5 = 0b00110#5)
    (hs : bit w 20 = false) (h : decodeMsrImm c w = .ok i) : IsCodeOf (.wide w) i := by
  unfold decodeMsrImm at h
  split at h <;> cases h
  next hf =>
    obtain ⟨h21, h12⟩ := hf
    have h20 : field w 20 2 = 0b10#2 :=
      field_join (field_one_set h21) (field_one_clear hs)
    exact ⟨rfl, encode_msrImm_eq_wide_iff.mpr ⟨hc, hk, rfl, h20, rfl, h12, rfl, rfl⟩⟩

theorem decodeDataImm_isCodeOf (hc : Cond.ofBits (field w 28 4) = some c) (hk : field w 25 3 = 0b001#3)
    (h : decodeDataImm c w = .ok i) : IsCodeOf (.wide w) i := by
  have row {op : BitVec 4} {sf : Bool} (hop : field w 21 4 = op) (hs : bit w 20 = sf) :
      encDataImm c op sf (field w 16 4) (field w 12 4) (field w 8 4) (field w 0 8) = .wide w :=
    encDataImm_eq_wide_iff.mpr ⟨hc, hk, hop, hs, rfl, rfl, rfl, rfl⟩
  unfold decodeDataImm at h
  rcases four_bit_cases (field w 21 4) with hop | hop | hop | hop | hop | hop | hop | hop | hop | hop | hop | hop |
    hop | hop | hop | hop
  iterate 8
    · rw [hop] at h
      obtain rfl := Except.ok.inj h
      exact ⟨rfl, row hop rfl⟩
  iterate 4
    · cases hs : bit w 20
      · rw [hop, hs] at h
        exact decodeMsrImm_isCodeOf hc (field_join hk (field_inside hop 2 2)) hs h
      · rw [hop, hs] at h
        obtain rfl := Except.ok.inj h
        exact ⟨rfl, row hop hs⟩
  iterate 4
    · rw [hop] at h
      obtain rfl := Except.ok.inj h
      exact ⟨rfl, row hop rfl⟩

theorem decodeDataReg_isCodeOf (hc : Cond.ofBits (field w 28 4) = some c) (hk : field w 25 3 = 0b000#3)
    (h4 : bit w 4 = false) (h : decodeDataReg c w = .ok i) : IsCodeOf (.wide w) i := by
  have row {op : BitVec 4} {sf : Bool} (hop : field w 21 4 = op) (hs : bit w 20 = sf) :
      encDataReg c op sf (field w 16 4) (field w 12 4) (field w 7 5) (.ofBits (field w 5 2)) (field w 0 4) = .wide w :=
    encDataReg_eq_wide_iff.mpr ⟨hc, hk, hop, hs, rfl, rfl, rfl, rfl, h4, rfl⟩
  unfold decodeDataReg at h
  rcases four_bit_cases (field w 21 4) with hop | hop | hop | hop | hop | hop | hop | hop | hop | hop | hop | hop |
    hop | hop | hop | hop
  iterate 8
    · rw [hop] at h
      obtain rfl := Except.ok.inj h
      exact ⟨rfl, row hop rfl⟩
  iterate 4
    · cases hs : bit w 20
      · rw [hop, hs] at h
        exact decodeMisc_isCodeOf hc (field_join hk (field_inside hop 2 2)) hs h
      · rw [hop, hs] at h
        obtain rfl := Except.ok.inj h
        exact ⟨rfl, row hop hs⟩
  iterate 4
    · rw [hop] at h
      obtain rfl := Except.ok.inj h
      exact ⟨rfl, row hop rfl⟩

theorem decodeDataRsr_isCodeOf (hc : Cond.ofBits (field w 28 4) = some c) (hk : field w 25 3 = 0b000#3)
    (h7 : bit w 7 = false) (h4 : bit w 4 = true) (h : decodeDataRsr c w = .ok i) : IsCodeOf (.wide w) i := by
  have row {op : BitVec 4} {sf : Bool} (hop : field w 21 4 = op) (hs : bit w 20 = sf) :
      encDataRsr c op sf (field w 16 4) (field w 12 4) (field w 8 4) (.ofBits (field w 5 2)) (field w 0 4) = .wide w :=
    encDataRsr_eq_wide_iff.mpr ⟨hc, hk, hop, hs, rfl, rfl, rfl, h7, rfl, h4, rfl⟩
  unfold decodeDataRsr at h
  rcases four_bit_cases (field w 21 4) with hop | hop | hop | hop | hop | hop | hop | hop | hop | hop | hop | hop |
    hop | hop | hop | hop
  iterate 8
    · rw [hop] at h
      obtain rfl := Except.ok.inj h
      exact ⟨rfl, row hop rfl⟩
  iterate 4
    · cases hs : bit w 20
      · rw [hop, hs] at h
        exact decodeMisc_isCodeOf hc (field_join hk (field_inside hop 2 2)) hs h
      · rw [hop, hs] at h
        obtain rfl := Except.ok.inj h
        exact ⟨rfl, row hop hs⟩
  iterate 4
    · rw [hop] at h
      obtain rfl := Except.ok.inj h
      exact ⟨rfl, row hop rfl⟩

theorem decodeMultiply_isCodeOf (hc : Cond.ofBits (field w 28 4) = some c) (hk : field w 24 4 = 0b0000#4)
    (h4 : field w 4 4 = 0b1001#4) (h : decodeMultiply c w = .ok i) : IsCodeOf (.wide w) i := by
  have row {kind : BitVec 3} {sf : Bool} {b : BitVec 4} (hd : field w 21 3 = kind) (hs : bit w 20 = sf)
      (hb : field w 12 4 = b) : encMultiply c kind sf (field w 16 4) b (field w 8 4) (field w 0 4) = .wide w :=
    encMultiply_eq_wide_iff.mpr ⟨hc, hk, hd, hs, rfl, hb, rfl, h4, rfl⟩
  unfold decodeMultiply at h
  split at h
  case h_1 hd =>
    split at h <;> cases h
    next hb => exact ⟨rfl, row hd rfl hb⟩
  case h_3 hd =>
    split at h <;> cases h
    next hs => exact ⟨rfl, row hd (Bool.eq_false_iff.mpr hs) rfl⟩
  case h_4 => cases h
  case h_8 =>
    have hd : field w 21 3 = 0b111#3 := by
      simp only [imp_false] at *
      bv_omega
    cases h
    exact ⟨rfl, row hd rfl rfl⟩
  all_goals
    rename_i hd
    cases h
    exact ⟨rfl, row hd rfl rfl⟩

theorem decodeSwap_isCodeOf (hc : Cond.ofBits (field w 28 4) = some c) (hk : field w 24 4 = 0b0001#4)
    (h4 : field w 4 4 = 0b1001#4) (h : decodeSwap c w = .ok i) : IsCodeOf (.wide w) i := by
  unfold decodeSwap at h
  split at h
  case h_1 hop | h_2 hop | h_3 hop =>
    split at h <;> cases h
    next h8 => exact ⟨rfl, encNibbles_eq_wide_iff.mpr ⟨hc, field_join hk hop, rfl, rfl, h8, h4, rfl⟩⟩
  case h_4 hop =>
    split at h <;> cases h
    next hf =>
      obtain ⟨h8, h0⟩ := hf
      exact ⟨rfl, encNibbles_eq_wide_iff.mpr ⟨hc, field_join hk hop, rfl, rfl, h8, h4, h0⟩⟩
  case h_5 => cases h

theorem decodeExtraImm_isCodeOf (hc : Cond.ofBits (field w 28 4) = some c) (hk : field w 25 3 = 0b000#3)
    (hi : indexingOk (bit w 24) (bit w 21) = true) (h22 : bit w 22 = true) (h7 : bit w 7 = true)
    (h5 : field w 5 2 ≠ 0b00#2) (h4 : bit w 4 = true) : IsCodeOf (.wide w) (decodeExtraImm c w) := by
  have row {l : BitVec 1} {sh : BitVec 2} (hl : bit w 20 = bit l 0) (hsh : field w 5 2 = sh) :
      encExtra c (bit w 24) (bit w 23) 0b1#1 (bit w 21) l (field w 16 4) (field w 12 4) (field w 8 4) sh
        (field w 0 4) = .wide w :=
    encExtra_eq_wide_iff.mpr ⟨hc, hk, rfl, rfl, h22, rfl, hl, rfl, rfl, rfl, h7, hsh, h4, rfl⟩
  unfold decodeExtraImm
  split
  case h_3 hl _ _ | h_6 hl _ _ =>
    have hsh : field w 5 2 = 0b11#2 := by
      simp only [imp_false] at *
      bv_omega
    exact ⟨hi, row hl hsh⟩
  all_goals
    rename_i hl hsh
    exact ⟨hi, row hl hsh⟩

theorem decodeExtraReg_isCodeOf (hc : Cond.ofBits (field w 28 4) = some c) (hk : field w 25 3 = 0b000#3)
    (hi : indexingOk (bit w 24) (bit w 21) = true) (h22 : bit w 22 = false) (h8 : field w 8 4 = 0#4)
    (h7 : bit w 7 = true) (h5 : field w 5 2 ≠ 0b00#2) (h4 : bit w 4 = true) :
    IsCodeOf (.wide w) (decodeExtraReg c w) := by
  have row {l : BitVec 1} {sh : BitVec 2} (hl : bit w 20 = bit l 0) (hsh : field w 5 2 = sh) :
      encExtra c (bit w 24) (bit w 23) 0b0#1 (bit w 21) l (field w 16 4) (field w 12 4) 0#4 sh (field w 0 4) =
        .wide w :=
    encExtra_eq_wide_iff.mpr ⟨hc, hk, rfl, rfl, h22, rfl, hl, rfl, rfl, h8, h7, hsh, h4, rfl⟩
  unfold decodeExtraReg
  split
  case h_3 hl _ _ | h_6 hl _ _ =>
    have hsh : field w 5 2 = 0b11#2 := by
      simp only [imp_false] at *
      bv_omega
    exact ⟨hi, row hl hsh⟩
  all_goals
    rename_i hl hsh
    exact ⟨hi, row hl hsh⟩

theorem decodeExtra_isCodeOf (hc : Cond.ofBits (field w 28 4) = some c) (hk : field w 25 3 = 0b000#3)
    (h7 : bit w 7 = true) (h5 : field w 5 2 ≠ 0b00#2) (h4 : bit w 4 = true) (h : decodeExtra c w = .ok i) :
    IsCodeOf (.wide w) i := by
  unfold decodeExtra at h
  split at h
  next hi =>
    split at h
    next h22 =>
      cases h
      exact decodeExtraImm_isCodeOf hc hk hi h22 h7 h5 h4
    next h22 =>
      split at h <;> cases h
      next h8 => exact decodeExtraReg_isCodeOf hc hk hi (Bool.eq_false_iff.mpr h22) h8 h7 h5 h4
  next => cases h

/-- `instr[7:4]` of the multiplies, the swaps and the exclusives. -/
theorem field_4_4_eq_nine (h7 : bit w 7 = true) (h5 : field w 5 2 = 0b00#2) (h4 : bit w 4 = true) :
    field w 4 4 = 0b1001#4 :=
  field_join (field_join (field_one_set h7) h5) (field_one_set h4)

theorem decodeClass0_isCodeOf (hc : Cond.ofBits (field w 28 4) = some c) (hk : field w 25 3 = 0b000#3)
    (h : decodeClass0 c w = .ok i) : IsCodeOf (.wide w) i := by
  unfold decodeClass0 at h
  split at h
  next h4 =>
    split at h
    next h7 =>
      split at h
      next h5 =>
        have h44 : field w 4 4 = 0b1001#4 := field_4_4_eq_nine h7 h5 h4
        split at h
        next h24 => exact decodeSwap_isCodeOf hc (field_join hk (field_one_set h24)) h44 h
        next h24 =>
          exact decodeMultiply_isCodeOf hc
            (field_join hk (field_one_clear (Bool.eq_false_iff.mpr h24))) h44 h
      next h5 => exact decodeExtra_isCodeOf hc hk h7 h5 h4 h
    next h7 => exact decodeDataRsr_isCodeOf hc hk (Bool.eq_false_iff.mpr h7) h4 h
  next h4 => exact decodeDataReg_isCodeOf hc hk (Bool.eq_false_iff.mpr h4) h

/-- Without an indexing the word is that of a translated row: `P = 0`, `W = 1`. -/
theorem indexingOk_eq_false {p wb : Bool} (h : ¬ indexingOk p wb = true) : p = false ∧ wb = true := by
  revert h
  cases p <;> cases wb <;> decide

theorem decodeLoadStoreImm_isCodeOf (hc : Cond.ofBits (field w 28 4) = some c) (hk : field w 25 3 = 0b010#3) :
    IsCodeOf (.wide w) (decodeLoadStoreImm c w) := by
  have row {p wb : Bool} {b l : BitVec 1} (hp : bit w 24 = p) (hb : bit w 22 = bit b 0) (hw : bit w 21 = wb)
      (hl : bit w 20 = bit l 0) :
      encLoadStoreImm c p (bit w 23) b wb l (field w 16 4) (field w 12 4) (field w 0 12) = .wide w :=
    encLoadStoreImm_eq_wide_iff.mpr ⟨hc, hk, hp, rfl, hb, hw, hl, rfl, rfl, rfl⟩
  unfold decodeLoadStoreImm
  split
  next hi =>
    split
    all_goals
      rename_i hb hl
      exact ⟨hi, row rfl hb rfl hl⟩
  next hi =>
    obtain ⟨hp, hw⟩ := indexingOk_eq_false hi
    split
    all_goals
      rename_i hb hl
      exact ⟨rfl, row hp hb hw hl⟩

theorem decodeLoadStoreReg_isCodeOf (hc : Cond.ofBits (field w 28 4) = some c) (hk : field w 25 3 = 0b011#3)
    (h4 : bit w 4 = false) : IsCodeOf (.wide w) (decodeLoadStoreReg c w) := by
  have row {p wb : Bool} {b l : BitVec 1} (hp : bit w 24 = p) (hb : bit w 22 = bit b 0) (hw : bit w 21 = wb)
      (hl : bit w 20 = bit l 0) :
      encLoadStoreReg c p (bit w 23) b wb l (field w 16 4) (field w 12 4) (field w 7 5) (.ofBits (field w 5 2))
        (field w 0 4) = .wide w :=
    encLoadStoreReg_eq_wide_iff.mpr ⟨hc, hk, hp, rfl, hb, hw, hl, rfl, rfl, rfl, rfl, h4, rfl⟩
  unfold decodeLoadStoreReg
  split
  next hi =>
    split
    all_goals
      rename_i hb hl
      exact ⟨hi, row rfl hb rfl hl⟩
  next hi =>
    obtain ⟨hp, hw⟩ := indexingOk_eq_false hi
    split
    all_goals
      rename_i hb hl
      exact ⟨rfl, row hp hb hw hl⟩

theorem decodeUpper_isCodeOf (hc : Cond.ofBits (field w 28 4) = some c) (h27 : bit w 27 = true) :
    IsCodeOf (.wide w) (decodeUpper c w) := by
  have class_of {k : BitVec 2} (hk : field w 25 2 = k) : field w 25 3 = 0b1#1 ++ k :=
    field_join (field_one_set h27) hk
  have top_of {k : BitVec 2} {b : BitVec 1} (hk : field w 25 2 = k) (hb : bit w 24 = bit b 0) :
      field w 24 4 = 0b1#1 ++ k ++ b := field_join (class_of hk) ((field_one_eq_iff w 24 b).mpr hb)
  unfold decodeUpper
  split
  next hk =>
    split
    next hl =>
      exact ⟨rfl, encBlock_eq_wide_iff.mpr ⟨hc, class_of hk, rfl, rfl, rfl, rfl, hl, rfl, rfl⟩⟩
    next hl =>
      exact ⟨rfl, encBlock_eq_wide_iff.mpr
        ⟨hc, class_of hk, rfl, rfl, rfl, rfl, Bool.eq_false_iff.mpr hl, rfl, rfl⟩⟩
  next hk =>
    split
    next hb => exact ⟨rfl, wide_imm24_eq_wide_iff.mpr ⟨hc, top_of (b := 0b1#1) hk hb, rfl⟩⟩
    next hb =>
      exact ⟨rfl, wide_imm24_eq_wide_iff.mpr ⟨hc, top_of (b := 0b0#1) hk (Bool.eq_false_iff.mpr hb), rfl⟩⟩
  next hk => exact ⟨rfl, encode_copMem_eq_wide_iff.mpr ⟨hc, class_of hk, rfl⟩⟩
  next =>
    have hk : field w 25 2 = 0b11#2 := by
      simp only [imp_false] at *
      bv_omega
    split
    next hb =>
      split
      next ht => exact ⟨rfl, wide_imm24_eq_wide_iff.mpr ⟨hc, top_of (b := 0b1#1) hk hb, ht⟩⟩
      next ht =>
        exact ⟨bne_iff_ne.mpr ht, wide_imm24_eq_wide_iff.mpr ⟨hc, top_of (b := 0b1#1) hk hb, rfl⟩⟩
    next hb =>
      exact ⟨rfl, wide_imm24_eq_wide_iff.mpr ⟨hc, top_of (b := 0b0#1) hk (Bool.eq_false_iff.mpr hb), rfl⟩⟩

theorem decodeWide_isCodeOf (h : decodeWide w = .ok i) : IsCodeOf (.wide w) i := by
  unfold decodeWide at h
  split at h
  next => cases h
  next c hc =>
    split at h
    next hk => exact decodeClass0_isCodeOf hc hk h
    next hk => exact decodeDataImm_isCodeOf hc hk h
    next hk =>
      cases h
      exact decodeLoadStoreImm_isCodeOf hc hk
    next hk =>
      split at h <;> cases h
      next h4 => exact ⟨rfl, encode_media_eq_wide_iff.mpr ⟨hc, hk, rfl, h4, rfl⟩⟩
      next h4 => exact decodeLoadStoreReg_isCodeOf hc hk (Bool.eq_false_iff.mpr h4)
    next =>
      have upper : bit (field w 25 3) 2 = true := by
        generalize field w 25 3 = k at *
        revert k
        decide
      cases h
      exact decodeUpper_isCodeOf hc (by rwa [bit_field w (by decide)] at upper)

end

/-! ## The word of a wide instruction decodes to it -/

section
variable {c : Cond} {w : Word} {i : Instr}

theorem decodeWide_class0 (hc : Cond.ofBits (field w 28 4) = some c) (hk : field w 25 3 = 0b000#3) :
    decodeWide w = decodeClass0 c w := by
  unfold decodeWide
  rw [hc, hk]
  rfl

theorem decodeWide_class1 (hc : Cond.ofBits (field w 28 4) = some c) (hk : field w 25 3 = 0b001#3) :
    decodeWide w = decodeDataImm c w := by
  unfold decodeWide
  rw [hc, hk]
  rfl

theorem decodeWide_class2 (hc : Cond.ofBits (field w 28 4) = some c) (hk : field w 25 3 = 0b010#3) :
    decodeWide w = .ok (decodeLoadStoreImm c w) := by
  unfold decodeWide
  rw [hc, hk]
  rfl

theorem decodeWide_media (hc : Cond.ofBits (field w 28 4) = some c) (hk : field w 25 3 = 0b011#3)
    (h4 : bit w 4 = true) : decodeWide w = .ok (.media c (field w 5 20) (field w 0 4)) := by
  unfold decodeWide
  rw [hc, hk, h4]
  rfl

theorem decodeWide_loadStoreReg (hc : Cond.ofBits (field w 28 4) = some c) (hk : field w 25 3 = 0b011#3)
    (h4 : bit w 4 = false) : decodeWide w = .ok (decodeLoadStoreReg c w) := by
  unfold decodeWide
  rw [hc, hk, h4]
  rfl

theorem decodeWide_upper (hc : Cond.ofBits (field w 28 4) = some c) (h27 : bit w 27 = true) :
    decodeWide w = .ok (decodeUpper c w) := by
  have join : field w 25 3 = 0b1#1 ++ field w 25 2 :=
    field_join (n := 1) (m := 2) (field_one_set h27) rfl
  rcases two_bit_cases (field w 25 2) with hk | hk | hk | hk
  all_goals
    unfold decodeWide
    rw [hc, join, hk]
    rfl

theorem decodeWide_dataReg (hc : Cond.ofBits (field w 28 4) = some c) (hk : field w 25 3 = 0b000#3)
    (h4 : bit w 4 = false) : decodeWide w = decodeDataReg c w := by
  rw [decodeWide_class0 hc hk]
  unfold decodeClass0
  rw [h4]
  rfl

theorem decodeWide_dataRsr (hc : Cond.ofBits (field w 28 4) = some c) (hk : field w 25 3 = 0b000#3)
    (h7 : bit w 7 = false) (h4 : bit w 4 = true) : decodeWide w = decodeDataRsr c w := by
  rw [decodeWide_class0 hc hk]
  unfold decodeClass0
  rw [h4, h7]
  rfl

theorem decodeWide_extra (hc : Cond.ofBits (field w 28 4) = some c) (hk : field w 25 3 = 0b000#3)
    (h7 : bit w 7 = true) (h5 : field w 5 2 ≠ 0b00#2) (h4 : bit w 4 = true) : decodeWide w = decodeExtra c w := by
  rw [decodeWide_class0 hc hk]
  unfold decodeClass0
  rw [h4, h7, if_neg h5]
  rfl

theorem decodeExtra_imm (hi : indexingOk (bit w 24) (bit w 21) = true) (h22 : bit w 22 = true) :
    decodeExtra c w = .ok (decodeExtraImm c w) := by
  unfold decodeExtra
  rw [hi, h22]
  rfl

theorem decodeExtra_reg (hi : indexingOk (bit w 24) (bit w 21) = true) (h22 : bit w 22 = false)
    (h8 : field w 8 4 = 0#4) : decodeExtra c w = .ok (decodeExtraReg c w) := by
  unfold decodeExtra
  rw [hi, h22, h8]
  rfl

theorem decodeWide_multiply (hc : Cond.ofBits (field w 28 4) = some c) (hk : field w 24 4 = 0b0000#4)
    (h44 : field w 4 4 = 0b1001#4) : decodeWide w = decodeMultiply c w := by
  have h4 : bit w 4 = true := bit_inside h44 0
  have h7 : bit w 7 = true := bit_inside h44 3
  have h5 : field w 5 2 = 0b00#2 := field_inside h44 1 2
  have h24 : bit w 24 = false := bit_inside hk 0
  rw [decodeWide_class0 hc (field_inside hk 1 3)]
  unfold decodeClass0
  rw [h4, h7, h5, h24]
  rfl

theorem decodeWide_swap (hc : Cond.ofBits (field w 28 4) = some c) (hk : field w 24 4 = 0b0001#4)
    (h44 : field w 4 4 = 0b1001#4) : decodeWide w = decodeSwap c w := by
  have h4 : bit w 4 = true := bit_inside h44 0
  have h7 : bit w 7 = true := bit_inside h44 3
  have h5 : field w 5 2 = 0b00#2 := field_inside h44 1 2
  have h24 : bit w 24 = true := bit_inside hk 0
  rw [decodeWide_class0 hc (field_inside hk 1 3)]
  unfold decodeClass0
  rw [h4, h7, h5, h24]
  rfl

/-- The opcodes of the compares, which with `S = 0` are the miscellaneous space. -/
theorem misc_opcode (h23 : field w 23 2 = 0b10#2) : field w 21 4 = 0b1000#4 ∨ field w 21 4 = 0b1001#4 ∨
    field w 21 4 = 0b1010#4 ∨ field w 21 4 = 0b1011#4 := by
  have join : field w 21 4 = 0b10#2 ++ field w 21 2 := field_join (n := 2) (m := 2) h23 rfl
  rcases two_bit_cases (field w 21 2) with hoo | hoo | hoo | hoo <;> simp [join, hoo]

theorem decodeDataReg_misc (h23 : field w 23 2 = 0b10#2) (hs : bit w 20 = false) :
    decodeDataReg c w = decodeMisc c w := by
  rcases misc_opcode h23 with hop | hop | hop | hop
  all_goals
    unfold decodeDataReg
    rw [hop, hs]
    rfl

theorem decodeDataRsr_misc (h23 : field w 23 2 = 0b10#2) (hs : bit w 20 = false) :
    decodeDataRsr c w = decodeMisc c w := by
  rcases misc_opcode h23 with hop | hop | hop | hop
  all_goals
    unfold decodeDataRsr
    rw [hop, hs]
    rfl

theorem decodeDataImm_msrImm (h23 : field w 23 2 = 0b10#2) (hs : bit w 20 = false) :
    decodeDataImm c w = decodeMsrImm c w := by
  rcases misc_opcode h23 with hop | hop | hop | hop
  all_goals
    unfold decodeDataImm
    rw [hop, hs]
    rfl

theorem decodeWide_misc (hc : Cond.ofBits (field w 28 4) = some c) (hk : field w 23 5 = 0b00010#5)
    (hs : bit w 20 = false) (h : bit w 4 = false ∨ bit w 7 = false) : decodeWide w = decodeMisc c w := by
  have h25 : field w 25 3 = 0b000#3 := field_inside hk 2 3
  have h23 : field w 23 2 = 0b10#2 := field_inside hk 0 2
  cases h4 : bit w 4 with
  | false => rw [decodeWide_dataReg hc h25 h4, decodeDataReg_misc h23 hs]
  | true =>
    have h7 : bit w 7 = false := by simpa [h4] using h
    rw [decodeWide_dataRsr hc h25 h7 h4, decodeDataRsr_misc h23 hs]

/-- A word of the miscellaneous space by its nibbles: `low` is that of no multiply and no extra load/store. -/
theorem decodeWide_misc_nibbles {top : BitVec 8} {low : BitVec 4} (hc : Cond.ofBits (field w 28 4) = some c)
    (htop : field w 20 8 = top) (hlow : field w 4 4 = low) (ht : field top 3 5 = 0b00010#5 ∧ bit top 0 = false)
    (h7 : bit low 3 = false) : decodeWide w = decodeMisc c w ∧ field w 21 2 = field top 1 2 := by
  obtain ⟨hk, hs⟩ := ht
  refine ⟨decodeWide_misc hc ?_ ?_ (.inr ((bit_inside hlow 3).trans h7)), field_inside htop 1 2⟩
  · exact (field_inside htop 3 5).trans hk
  · exact (bit_inside htop 0).trans hs

theorem decodeMisc_statusMove (h4 : field w 4 4 = 0x0#4) : decodeMisc c w = decodeStatusMove c w := by
  unfold decodeMisc
  rw [h4]
  rfl

theorem decodeMisc_bxClz (h4 : field w 4 4 = 0x1#4) : decodeMisc c w = decodeBxClz c w := by
  unfold decodeMisc
  rw [h4]
  rfl

theorem decodeMisc_saturating (h4 : field w 4 4 = 0x5#4) (h8 : field w 8 4 = 0#4) :
    decodeMisc c w = .ok (decodeSaturating c w) := by
  unfold decodeMisc
  rw [h4, h8]
  rfl

theorem decodeMisc_halfMul (h7 : bit w 7 = true) (h4 : bit w 4 = false) :
    decodeMisc c w = .ok (decodeHalfMul c w) := by
  have join : field w 4 4 = 0b1#1 ++ field w 5 2 ++ 0b0#1 :=
    field_join (n := 3) (field_join (n := 1) (m := 2) (field_one_set h7) rfl)
      (field_one_clear h4)
  rcases two_bit_cases (field w 5 2) with hyx | hyx | hyx | hyx
  all_goals
    unfold decodeMisc
    rw [join, hyx]
    rfl

theorem decodeWide_eq_of_encode (hwf : i.wellFormed = true) (h : encode i = .wide w) : decodeWide w = .ok i := by
  cases i with
  | andImm | eorImm | subImm | rsbImm | addImm | adcImm | sbcImm | rscImm | orrImm | movImm | bicImm | mvnImm =>
    obtain ⟨hc, hk, hop, rfl, rfl, rfl, rfl, rfl⟩ := encDataImm_eq_wide_iff.mp h
    rw [decodeWide_class1 hc hk]
    unfold decodeDataImm
    rw [hop]
    rfl
  | tstImm | teqImm | cmpImm | cmnImm =>
    obtain ⟨hc, hk, hop, hs, rfl, rfl, rfl, rfl⟩ := encDataImm_eq_wide_iff.mp h
    rw [decodeWide_class1 hc hk]
    unfold decodeDataImm
    rw [hop, hs]
    rfl
  | andReg | eorReg | subReg | rsbReg | addReg | adcReg | sbcReg | rscReg | orrReg | movReg | bicReg | mvnReg =>
    obtain ⟨hc, hk, hop, rfl, rfl, rfl, rfl, rfl, h4, rfl⟩ := encDataReg_eq_wide_iff.mp h
    rw [decodeWide_dataReg hc hk h4]
    unfold decodeDataReg
    rw [hop]
    rfl
  | tstReg | teqReg | cmpReg | cmnReg =>
    obtain ⟨hc, hk, hop, hs, rfl, rfl, rfl, rfl, h4, rfl⟩ := encDataReg_eq_wide_iff.mp h
    rw [decodeWide_dataReg hc hk h4]
    unfold decodeDataReg
    rw [hop, hs]
    rfl
  | andRsr | eorRsr | subRsr | rsbRsr | addRsr | adcRsr | sbcRsr | rscRsr | orrRsr | movRsr | bicRsr | mvnRsr =>
    obtain ⟨hc, hk, hop, rfl, rfl, rfl, rfl, h7, rfl, h4, rfl⟩ := encDataRsr_eq_wide_iff.mp h
    rw [decodeWide_dataRsr hc hk h7 h4]
    unfold decodeDataRsr
    rw [hop]
    rfl
  | tstRsr | teqRsr | cmpRsr | cmnRsr =>
    obtain ⟨hc, hk, hop, hs, rfl, rfl, rfl, h7, rfl, h4, rfl⟩ := encDataRsr_eq_wide_iff.mp h
    rw [decodeWide_dataRsr hc hk h7 h4]
    unfold decodeDataRsr
    rw [hop, hs]
    rfl
  | mrs =>
    obtain ⟨hc, hk, rfl, h20, h16, rfl, h0⟩ := encode_mrs_eq_wide_iff.mp h
    have h4 : field w 4 4 = 0#4 := field_inside h0 4 4
    have h21 : bit w 21 = false := bit_inside h20 1
    have h8 : field w 8 4 = 0#4 := field_inside h0 8 4
    have h00 : field w 0 4 = 0#4 := field_inside h0 0 4
    rw [decodeWide_misc hc hk (bit_inside h20 0) (.inl (bit_inside h4 0)), decodeMisc_statusMove h4]
    unfold decodeStatusMove
    rw [h21, h16, h8, h00]
    rfl
  | msrReg =>
    obtain ⟨hc, hk, rfl, h20, rfl, h12, h48, rfl⟩ := encode_msrReg_eq_wide_iff.mp h
    have h4 : field w 4 4 = 0#4 := field_inside h48 0 4
    have h21 : bit w 21 = true := bit_inside h20 1
    have h8 : field w 8 4 = 0#4 := field_inside h48 4 4
    rw [decodeWide_misc hc hk (bit_inside h20 0) (.inl (bit_inside h4 0)), decodeMisc_statusMove h4]
    unfold decodeStatusMove
    rw [h21, h12, h8]
    rfl
  | msrImm =>
    obtain ⟨hc, hk, rfl, h20, rfl, h12, rfl, rfl⟩ := encode_msrImm_eq_wide_iff.mp h
    have hs : bit w 20 = false := bit_inside h20 0
    have h21 : bit w 21 = true := bit_inside h20 1
    have h23 : field w 23 2 = 0b10#2 := field_inside hk 0 2
    rw [decodeWide_class1 hc (field_inside hk 2 3), decodeDataImm_msrImm h23 hs]
    unfold decodeMsrImm
    rw [h21, h12]
    rfl
  | bx =>
    obtain ⟨hc, htop, h16, h12, h8, h4, rfl⟩ := encNibbles_eq_wide_iff.mp h
    obtain ⟨hd, hoo⟩ := decodeWide_misc_nibbles hc htop h4 ⟨rfl, rfl⟩ rfl
    rw [hd, decodeMisc_bxClz h4]
    unfold decodeBxClz
    rw [hoo, ones_iff.mpr ⟨h16, h12, h8⟩]
    rfl
  | bxj | blxReg =>
    obtain ⟨hc, htop, h16, h12, h8, h4, rfl⟩ := encNibbles_eq_wide_iff.mp h
    obtain ⟨hd, hoo⟩ := decodeWide_misc_nibbles hc htop h4 ⟨rfl, rfl⟩ rfl
    rw [hd]
    unfold decodeMisc
    rw [h4, hoo, ones_iff.mpr ⟨h16, h12, h8⟩]
    rfl
  | clz =>
    obtain ⟨hc, htop, h16, rfl, h8, h4, rfl⟩ := encNibbles_eq_wide_iff.mp h
    obtain ⟨hd, hoo⟩ := decodeWide_misc_nibbles hc htop h4 ⟨rfl, rfl⟩ rfl
    rw [hd, decodeMisc_bxClz h4]
    unfold decodeBxClz
    rw [hoo, h16, h8]
    rfl
  | qadd | qsub | qdadd | qdsub =>
    obtain ⟨hc, htop, rfl, rfl, h8, h4, rfl⟩ := encNibbles_eq_wide_iff.mp h
    obtain ⟨hd, hoo⟩ := decodeWide_misc_nibbles hc htop h4 ⟨rfl, rfl⟩ rfl
    rw [hd, decodeMisc_saturating h4 h8]
    unfold decodeSaturating
    rw [hoo]
    rfl
  | bkpt =>
    obtain ⟨hc, htop, rfl, h4, rfl⟩ := encode_bkpt_eq_wide_iff.mp h
    obtain ⟨hd, hoo⟩ := decodeWide_misc_nibbles hc htop h4 ⟨rfl, rfl⟩ rfl
    rw [hd]
    unfold decodeMisc
    rw [h4, hoo]
    rfl
  | smlaXY | smlawSmulw | smlalXY | smulXY =>
    obtain ⟨hc, hk, hoo, hs, rfl, rfl, rfl, h7, rfl, rfl, h4, rfl⟩ := encHalfMul_eq_wide_iff.mp h
    rw [decodeWide_misc hc hk hs (.inl h4), decodeMisc_halfMul h7 h4]
    unfold decodeHalfMul
    rw [hoo]
    rfl
  | mul =>
    obtain ⟨hc, hk, hd, rfl, rfl, h12, rfl, h4, rfl⟩ := encMultiply_eq_wide_iff.mp h
    rw [decodeWide_multiply hc hk h4]
    unfold decodeMultiply
    rw [hd, h12]
    rfl
  | umaal =>
    obtain ⟨hc, hk, hd, hs, rfl, rfl, rfl, h4, rfl⟩ := encMultiply_eq_wide_iff.mp h
    rw [decodeWide_multiply hc hk h4]
    unfold decodeMultiply
    rw [hd, hs]
    rfl
  | mla | umull | umlal | smull | smlal =>
    obtain ⟨hc, hk, hd, rfl, rfl, rfl, rfl, h4, rfl⟩ := encMultiply_eq_wide_iff.mp h
    rw [decodeWide_multiply hc hk h4]
    unfold decodeMultiply
    rw [hd]
    rfl
  | swp | swpb | strex =>
    obtain ⟨hc, htop, rfl, rfl, h8, h4, rfl⟩ := encNibbles_eq_wide_iff.mp h
    have hop : field w 20 4 = _ := field_inside htop 0 4
    rw [decodeWide_swap hc (field_inside htop 4 4) h4]
    unfold decodeSwap
    rw [hop, h8]
    rfl
  | ldrex =>
    obtain ⟨hc, htop, rfl, rfl, h8, h4, h0⟩ := encNibbles_eq_wide_iff.mp h
    have hop : field w 20 4 = _ := field_inside htop 0 4
    rw [decodeWide_swap hc (field_inside htop 4 4) h4]
    unfold decodeSwap
    rw [hop, h8, h0]
    rfl
  | strhImm | ldrdImm | strdImm | ldrhImm | ldrsbImm | ldrshImm =>
    obtain ⟨hc, hk, rfl, rfl, h22, rfl, hl, rfl, rfl, rfl, h7, h5, h4, rfl⟩ := encExtra_eq_wide_iff.mp h
    rw [decodeWide_extra hc hk h7 (by rw [h5]; decide) h4, decodeExtra_imm hwf h22]
    unfold decodeExtraImm
    rw [hl, h5]
    rfl
  | strhReg | ldrdReg | strdReg | ldrhReg | ldrsbReg | ldrshReg =>
    obtain ⟨hc, hk, rfl, rfl, h22, rfl, hl, rfl, rfl, h8, h7, h5, h4, rfl⟩ := encExtra_eq_wide_iff.mp h
    rw [decodeWide_extra hc hk h7 (by rw [h5]; decide) h4, decodeExtra_reg hwf h22 h8]
    unfold decodeExtraReg
    rw [hl, h5]
    rfl
  | strImm | ldrImm | strbImm | ldrbImm =>
    obtain ⟨hc, hk, rfl, rfl, h22, rfl, hl, rfl, rfl, rfl⟩ := encLoadStoreImm_eq_wide_iff.mp h
    have hi : indexingOk (bit w 24) (bit w 21) = true := hwf
    rw [decodeWide_class2 hc hk]
    unfold decodeLoadStoreImm
    rw [hi, h22, hl]
    rfl
  | strtImm | ldrtImm | strbtImm | ldrbtImm =>
    obtain ⟨hc, hk, hp, rfl, h22, hw, hl, rfl, rfl, rfl⟩ := encLoadStoreImm_eq_wide_iff.mp h
    rw [decodeWide_class2 hc hk]
    unfold decodeLoadStoreImm
    rw [hp, hw, h22, hl]
    rfl
  | strReg | ldrReg | strbReg | ldrbReg =>
    obtain ⟨hc, hk, rfl, rfl, h22, rfl, hl, rfl, rfl, rfl, rfl, h4, rfl⟩ := encLoadStoreReg_eq_wide_iff.mp h
    have hi : indexingOk (bit w 24) (bit w 21) = true := hwf
    rw [decodeWide_loadStoreReg hc hk h4]
    unfold decodeLoadStoreReg
    rw [hi, h22, hl]
    rfl
  | strtReg | ldrtReg | strbtReg | ldrbtReg =>
    obtain ⟨hc, hk, hp, rfl, h22, hw, hl, rfl, rfl, rfl, rfl, h4, rfl⟩ := encLoadStoreReg_eq_wide_iff.mp h
    rw [decodeWide_loadStoreReg hc hk h4]
    unfold decodeLoadStoreReg
    rw [hp, hw, h22, hl]
    rfl
  | media =>
    obtain ⟨hc, hk, rfl, h4, rfl⟩ := encode_media_eq_wide_iff.mp h
    exact decodeWide_media hc hk h4
  | stm | ldm =>
    obtain ⟨hc, hk, rfl, rfl, rfl, rfl, hl, rfl, rfl⟩ := encBlock_eq_wide_iff.mp h
    have h25 : field w 25 2 = 0b00#2 := field_inside hk 0 2
    rw [decodeWide_upper hc (bit_inside hk 2)]
    unfold decodeUpper
    rw [h25, hl]
    rfl
  | b | bl | copReg =>
    obtain ⟨hc, hop, rfl⟩ := wide_imm24_eq_wide_iff.mp h
    have h25 : field w 25 2 = _ := field_inside hop 1 2
    have h24 : bit w 24 = _ := bit_inside hop 0
    rw [decodeWide_upper hc (bit_inside hop 3)]
    unfold decodeUpper
    rw [h25, h24]
    rfl
  | swiTrap =>
    obtain ⟨hc, hop, h0⟩ := wide_imm24_eq_wide_iff.mp h
    have h25 : field w 25 2 = 0b11#2 := field_inside hop 1 2
    have h24 : bit w 24 = true := bit_inside hop 0
    rw [decodeWide_upper hc (bit_inside hop 3)]
    unfold decodeUpper
    rw [h25, h24, h0]
    rfl
  | swiOther =>
    obtain ⟨hc, hop, rfl⟩ := wide_imm24_eq_wide_iff.mp h
    have h25 : field w 25 2 = 0b11#2 := field_inside hop 1 2
    have h24 : bit w 24 = true := bit_inside hop 0
    have hne : field w 0 24 ≠ wideTrapImm := bne_iff_ne.mp hwf
    rw [decodeWide_upper hc (bit_inside hop 3)]
    unfold decodeUpper
    rw [h25, h24, if_neg hne]
    rfl
  | copMem =>
    obtain ⟨hc, hk, rfl⟩ := encode_copMem_eq_wide_iff.mp h
    have h25 : field w 25 2 = 0b10#2 := field_inside hk 0 2
    rw [decodeWide_upper hc (bit_inside hk 2)]
    unfold decodeUpper
    rw [h25]
    rfl
  | _ => exact Code.noConfusion h

end

/-! ## The compact formats: which fields a half-word of each has (30_encoding.md R101) -/

section
variable {h : Half}

theorem encCompact3_eq_compact_iff {op : BitVec 7} {m n d : BitVec 3} : encCompact3 op m n d = .compact h ↔
    field h 9 7 = op ∧ field h 6 3 = m ∧ field h 3 3 = n ∧ field h 0 3 = d := by
  refine compact_eq_compact_iff.trans ?_
  change field h 0 (7 + 3 + 3 + 3) = _ ↔ _
  simp only [field_eq_append_iff, and_assoc]

theorem encCompactImm5_eq_compact_iff {op imm5 : BitVec 5} {n d : BitVec 3} :
    encCompactImm5 op imm5 n d = .compact h ↔
      field h 11 5 = op ∧ field h 6 5 = imm5 ∧ field h 3 3 = n ∧ field h 0 3 = d := by
  refine compact_eq_compact_iff.trans ?_
  change field h 0 (5 + 5 + 3 + 3) = _ ↔ _
  simp only [field_eq_append_iff, and_assoc]

theorem encCompactImm8_eq_compact_iff {op : BitVec 5} {d : BitVec 3} {imm8 : BitVec 8} :
    encCompactImm8 op d imm8 = .compact h ↔ field h 11 5 = op ∧ field h 8 3 = d ∧ field h 0 8 = imm8 := by
  refine compact_eq_compact_iff.trans ?_
  change field h 0 (5 + 3 + 8) = _ ↔ _
  simp only [field_eq_append_iff, and_assoc]

theorem encCompact2_eq_compact_iff {op : BitVec 10} {m d : BitVec 3} : encCompact2 op m d = .compact h ↔
    field h 6 10 = op ∧ field h 3 3 = m ∧ field h 0 3 = d := by
  refine compact_eq_compact_iff.trans ?_
  change field h 0 (10 + 3 + 3) = _ ↔ _
  simp only [field_eq_append_iff, and_assoc]

theorem encCompactImm11_eq_compact_iff {op : BitVec 5} {imm11 : BitVec 11} :
    encCompactImm11 op imm11 = .compact h ↔ field h 11 5 = op ∧ field h 0 11 = imm11 := by
  refine compact_eq_compact_iff.trans ?_
  change field h 0 (5 + 11) = _ ↔ _
  simp only [field_eq_append_iff]

theorem highReg_eq_iff {ext : Bool} {low : BitVec 3} {r : Reg} :
    highReg ext low = r ↔ bit r 3 = ext ∧ field r 0 3 = low := by
  have parts := field_eq_append_iff r 0 (BitVec.ofBool ext) low
  rw [field_one_eq_iff, bit_ofBool] at parts
  refine eq_comm.trans (Iff.trans ?_ parts)
  change _ ↔ field r 0 4 = _
  rw [field_full]
  rfl

theorem encCompactHigh_eq_compact_iff {oo : BitVec 2} {rm rd : Reg} : encCompactHigh oo rm rd = .compact h ↔
    field h 10 6 = 0b010001#6 ∧ field h 8 2 = oo ∧ highReg (bit h 6) (field h 3 3) = rm ∧
      highReg (bit h 7) (field h 0 3) = rd := by
  refine compact_eq_compact_iff.trans ?_
  change field h 0 (6 + 2 + 1 + 1 + 3 + 3) = _ ↔ _
  simp only [field_eq_append_iff, field_one_eq_iff, bit_field _ Nat.one_pos, highReg_eq_iff, and_assoc]
  constructor
  · rintro ⟨hop, hoo, h7, h6, h3, h0⟩
    exact ⟨hop, hoo, h6.symm, h3.symm, h7.symm, h0.symm⟩
  · rintro ⟨hop, hoo, h6, h3, h7, h0⟩
    exact ⟨hop, hoo, h7.symm, h6.symm, h3.symm, h0.symm⟩

/-- BX and BLX: one register number and three zeros below a 9-bit opcode. -/
theorem compact_exchange_eq_compact_iff {op : BitVec 9} {rm : Reg} :
    Code.compact (op ++ rm ++ 0b000#3) = .compact h ↔ field h 7 9 = op ∧ field h 3 4 = rm ∧ field h 0 3 = 0b000#3 := by
  refine compact_eq_compact_iff.trans ?_
  change field h 0 (9 + 4 + 3) = _ ↔ _
  simp only [field_eq_append_iff, and_assoc]

/-- Format T-SPADJ. -/
theorem compact_imm7_eq_compact_iff {op : BitVec 9} {imm7 : BitVec 7} :
    Code.compact (op ++ imm7) = .compact h ↔ field h 7 9 = op ∧ field h 0 7 = imm7 := by
  refine compact_eq_compact_iff.trans ?_
  change field h 0 (9 + 7) = _ ↔ _
  simp only [field_eq_append_iff]

/-- Format T-PUSH. -/
theorem compact_list_eq_compact_iff {op : BitVec 7} {extra : Bool} {list : BitVec 8} :
    Code.compact (op ++ BitVec.ofBool extra ++ list) = .compact h ↔
      field h 9 7 = op ∧ bit h 8 = extra ∧ field h 0 8 = list := by
  refine compact_eq_compact_iff.trans ?_
  change field h 0 (7 + 1 + 8) = _ ↔ _
  simp only [field_eq_append_iff, field_one_eq_iff, bit_ofBool, and_assoc]

/-- The formats of an 8-bit opcode and an 8-bit immediate: T-BKPT, T-SWI, the condition 1110 of T-BCC. -/
theorem compact_imm8_eq_compact_iff {op imm8 : BitVec 8} :
    Code.compact (op ++ imm8) = .compact h ↔ field h 8 8 = op ∧ field h 0 8 = imm8 := by
  refine compact_eq_compact_iff.trans ?_
  change field h 0 (8 + 8) = _ ↔ _
  simp only [field_eq_append_iff]

theorem encode_cSetend_eq_compact_iff {e : Bool} : encode (.cSetend e) = .compact h ↔
    field h 4 12 = 0b101101100101#12 ∧ bit h 3 = e ∧ field h 0 3 = 0b000#3 := by
  refine compact_eq_compact_iff.trans ?_
  change field h 0 (12 + 1 + 3) = _ ↔ _
  simp only [field_eq_append_iff, field_one_eq_iff, bit_ofBool, and_assoc]

theorem encode_cCps_eq_compact_iff {imod a i f : Bool} : encode (.cCps imod a i f) = .compact h ↔
    field h 5 11 = 0b10110110011#11 ∧ bit h 4 = imod ∧ bit h 3 = false ∧ bit h 2 = a ∧ bit h 1 = i ∧ bit h 0 = f := by
  refine compact_eq_compact_iff.trans ?_
  change field h 0 (11 + 1 + 1 + 1 + 1 + 1) = _ ↔ _
  simp only [field_eq_append_iff, field_one_eq_iff, bit_ofBool, bit_zero, and_assoc]

theorem encode_cBcond_eq_compact_iff {c : Cond} {imm8 : BitVec 8} : encode (.cBcond c imm8) = .compact h ↔
    field h 12 4 = 0b1101#4 ∧ Cond.ofBits (field h 8 4) = some c ∧ field h 0 8 = imm8 := by
  refine compact_eq_compact_iff.trans ?_
  change field h 0 (4 + 4 + 8) = _ ↔ _
  simp only [field_eq_append_iff, eq_cond_toBits_iff, and_assoc]

end

/-! ## A decoded half-word is the half-word of its instruction -/

section
variable {h : Half} {i : Instr}

theorem decodeCompactShiftAdd_isCodeOf (hk : field h 13 3 = 0b000#3) :
    IsCodeOf (.compact h) (decodeCompactShiftAdd h) := by
  unfold decodeCompactShiftAdd
  split
  case h_4 =>
    have hoo : field h 11 2 = 0b11#2 := by
      simp only [imp_false] at *
      bv_omega
    have row {b10 b9 : BitVec 1} (h10 : bit h 10 = bit b10 0) (h9 : bit h 9 = bit b9 0) :
        encCompact3 (0b000#3 ++ 0b11#2 ++ b10 ++ b9) (field h 6 3) (field h 3 3) (field h 0 3) = .compact h :=
      encCompact3_eq_compact_iff.mpr ⟨field_join (field_join (field_join hk hoo) ((field_one_eq_iff h 10 b10).mpr h10))
        ((field_one_eq_iff h 9 b9).mpr h9), rfl, rfl, rfl⟩
    split
    next h10 h9 => exact ⟨rfl, row (b10 := 0b0#1) (b9 := 0b0#1) h10 h9⟩
    next h10 h9 => exact ⟨rfl, row (b10 := 0b0#1) (b9 := 0b1#1) h10 h9⟩
    next h10 h9 => exact ⟨rfl, row (b10 := 0b1#1) (b9 := 0b0#1) h10 h9⟩
    next h10 h9 => exact ⟨rfl, row (b10 := 0b1#1) (b9 := 0b1#1) h10 h9⟩
  all_goals
    rename_i hoo
    exact ⟨rfl, encCompactImm5_eq_compact_iff.mpr ⟨field_join hk hoo, rfl, rfl, rfl⟩⟩

theorem decodeCompactImm8_isCodeOf (hk : field h 13 3 = 0b001#3) : IsCodeOf (.compact h) (decodeCompactImm8 h) := by
  unfold decodeCompactImm8
  split
  case h_4 =>
    have hoo : field h 11 2 = 0b11#2 := by
      simp only [imp_false] at *
      bv_omega
    exact ⟨rfl, encCompactImm8_eq_compact_iff.mpr ⟨field_join hk hoo, rfl, rfl⟩⟩
  all_goals
    rename_i hoo
    exact ⟨rfl, encCompactImm8_eq_compact_iff.mpr ⟨field_join hk hoo, rfl, rfl⟩⟩

theorem decodeCompactAlu_isCodeOf (h10 : field h 10 6 = 0b010000#6) : IsCodeOf (.compact h) (decodeCompactAlu h) := by
  unfold decodeCompactAlu
  split
  case h_16 =>
    have hop : field h 6 4 = 0b1111#4 := by
      simp only [imp_false] at *
      bv_omega
    exact ⟨rfl, encCompact2_eq_compact_iff.mpr ⟨field_join h10 hop, rfl, rfl⟩⟩
  all_goals
    rename_i hop
    exact ⟨rfl, encCompact2_eq_compact_iff.mpr ⟨field_join h10 hop, rfl, rfl⟩⟩

/-- The register number of BX and BLX is one field. -/
theorem field_3_4_eq_highReg : field h 3 4 = highReg (bit h 6) (field h 3 3) :=
  field_join (n := 1) (m := 3) ((field_one_eq_iff h 6 _).mpr (bit_ofBool _).symm) rfl

theorem decodeCompactHigh_isCodeOf (h10 : field h 10 6 = 0b010001#6) (hd : decodeCompactHigh h = .ok i) :
    IsCodeOf (.compact h) i := by
  unfold decodeCompactHigh at hd
  split at hd
  case h_4 =>
    have hoo : field h 8 2 = 0b11#2 := by
      simp only [imp_false] at *
      bv_omega
    split at hd
    next h0 =>
      split at hd <;> cases hd
      next h7 =>
        exact ⟨rfl, compact_exchange_eq_compact_iff.mpr
          ⟨field_join (field_join h10 hoo) (field_one_set h7), field_3_4_eq_highReg, h0⟩⟩
      next h7 =>
        exact ⟨rfl, compact_exchange_eq_compact_iff.mpr
          ⟨field_join (field_join h10 hoo) (field_one_clear (Bool.eq_false_iff.mpr h7)), field_3_4_eq_highReg, h0⟩⟩
    next => cases hd
  all_goals
    rename_i hoo
    cases hd
    exact ⟨rfl, encCompactHigh_eq_compact_iff.mpr ⟨h10, hoo, rfl, rfl⟩⟩

theorem decodeCompactRegOffset_isCodeOf (h12 : field h 12 4 = 0b0101#4) :
    IsCodeOf (.compact h) (decodeCompactRegOffset h) := by
  unfold decodeCompactRegOffset
  split
  case h_8 =>
    have hop : field h 9 3 = 0b111#3 := by
      simp only [imp_false] at *
      bv_omega
    exact ⟨rfl, encCompact3_eq_compact_iff.mpr ⟨field_join h12 hop, rfl, rfl, rfl⟩⟩
  all_goals
    rename_i hop
    exact ⟨rfl, encCompact3_eq_compact_iff.mpr ⟨field_join h12 hop, rfl, rfl, rfl⟩⟩

theorem decodeCompactGroup2_isCodeOf (hk : field h 13 3 = 0b010#3) (hd : decodeCompactGroup2 h = .ok i) :
    IsCodeOf (.compact h) i := by
  unfold decodeCompactGroup2 at hd
  split at hd
  next h12 =>
    cases hd
    exact decodeCompactRegOffset_isCodeOf (field_join hk (field_one_set h12))
  next h12 =>
    have top : field h 12 4 = 0b0100#4 := field_join hk (field_one_clear (Bool.eq_false_iff.mpr h12))
    split at hd
    next h11 =>
      cases hd
      exact ⟨rfl, encCompactImm8_eq_compact_iff.mpr ⟨field_join top (field_one_set h11), rfl, rfl⟩⟩
    next h11 =>
      have top : field h 11 5 = 0b01000#5 := field_join top (field_one_clear (Bool.eq_false_iff.mpr h11))
      split at hd
      next h10 => exact decodeCompactHigh_isCodeOf (field_join top (field_one_set h10)) hd
      next h10 =>
        cases hd
        exact decodeCompactAlu_isCodeOf (field_join top (field_one_clear (Bool.eq_false_iff.mpr h10)))

/-- The opcode of a format that is told by `instr[12]` and `instr[11]` in its dispatch group. -/
theorem field_11_5_eq {k : BitVec 3} {b12 b11 : BitVec 1} (hk : field h 13 3 = k) (h12 : bit h 12 = bit b12 0)
    (h11 : bit h 11 = bit b11 0) : field h 11 5 = k ++ b12 ++ b11 :=
  field_join (field_join hk ((field_one_eq_iff h 12 b12).mpr h12)) ((field_one_eq_iff h 11 b11).mpr h11)

theorem decodeCompactImmOffset_isCodeOf (hk : field h 13 3 = 0b011#3) :
    IsCodeOf (.compact h) (decodeCompactImmOffset h) := by
  unfold decodeCompactImmOffset
  split
  next h12 h11 =>
    exact ⟨rfl, encCompactImm5_eq_compact_iff.mpr
      ⟨field_11_5_eq (b12 := 0b0#1) (b11 := 0b0#1) hk h12 h11, rfl, rfl, rfl⟩⟩
  next h12 h11 =>
    exact ⟨rfl, encCompactImm5_eq_compact_iff.mpr
      ⟨field_11_5_eq (b12 := 0b0#1) (b11 := 0b1#1) hk h12 h11, rfl, rfl, rfl⟩⟩
  next h12 h11 =>
    exact ⟨rfl, encCompactImm5_eq_compact_iff.mpr
      ⟨field_11_5_eq (b12 := 0b1#1) (b11 := 0b0#1) hk h12 h11, rfl, rfl, rfl⟩⟩
  next h12 h11 =>
    exact ⟨rfl, encCompactImm5_eq_compact_iff.mpr
      ⟨field_11_5_eq (b12 := 0b1#1) (b11 := 0b1#1) hk h12 h11, rfl, rfl, rfl⟩⟩

theorem decodeCompactHalfSp_isCodeOf (hk : field h 13 3 = 0b100#3) :
    IsCodeOf (.compact h) (decodeCompactHalfSp h) := by
  unfold decodeCompactHalfSp
  split
  next h12 h11 =>
    exact ⟨rfl, encCompactImm5_eq_compact_iff.mpr
      ⟨field_11_5_eq (b12 := 0b0#1) (b11 := 0b0#1) hk h12 h11, rfl, rfl, rfl⟩⟩
  next h12 h11 =>
    exact ⟨rfl, encCompactImm5_eq_compact_iff.mpr
      ⟨field_11_5_eq (b12 := 0b0#1) (b11 := 0b1#1) hk h12 h11, rfl, rfl, rfl⟩⟩
  next h12 h11 =>
    exact ⟨rfl, encCompactImm8_eq_compact_iff.mpr
      ⟨field_11_5_eq (b12 := 0b1#1) (b11 := 0b0#1) hk h12 h11, rfl, rfl⟩⟩
  next h12 h11 =>
    exact ⟨rfl, encCompactImm8_eq_compact_iff.mpr
      ⟨field_11_5_eq (b12 := 0b1#1) (b11 := 0b1#1) hk h12 h11, rfl, rfl⟩⟩

theorem decodeCompactExtend_isCodeOf (h8 : field h 8 8 = 0b10110010#8) :
    IsCodeOf (.compact h) (decodeCompactExtend h) := by
  unfold decodeCompactExtend
  split
  case h_4 =>
    have hoo : field h 6 2 = 0b11#2 := by
      simp only [imp_false] at *
      bv_omega
    exact ⟨rfl, encCompact2_eq_compact_iff.mpr ⟨field_join h8 hoo, rfl, rfl⟩⟩
  all_goals
    rename_i hoo
    exact ⟨rfl, encCompact2_eq_compact_iff.mpr ⟨field_join h8 hoo, rfl, rfl⟩⟩

theorem decodeCompactReverse_isCodeOf (h8 : field h 8 8 = 0b10111010#8) :
    IsCodeOf (.compact h) (decodeCompactReverse h) := by
  unfold decodeCompactReverse
  split
  case h_4 =>
    have hoo : field h 6 2 = 0b11#2 := by
      simp only [imp_false] at *
      bv_omega
    exact ⟨rfl, encCompact2_eq_compact_iff.mpr ⟨field_join h8 hoo, rfl, rfl⟩⟩
  all_goals
    rename_i hoo
    exact ⟨rfl, encCompact2_eq_compact_iff.mpr ⟨field_join h8 hoo, rfl, rfl⟩⟩

theorem decodeCompactSetendCps_isCodeOf (h8 : field h 8 8 = 0b10110110#8) (hd : decodeCompactSetendCps h = .ok i) :
    IsCodeOf (.compact h) i := by
  unfold decodeCompactSetendCps at hd
  split at hd
  next hf =>
    obtain ⟨h4, h0⟩ := hf
    cases hd
    exact ⟨rfl, encode_cSetend_eq_compact_iff.mpr ⟨field_join h8 h4, rfl, h0⟩⟩
  next =>
    split at hd <;> cases hd
    next hf =>
      obtain ⟨h5, h3⟩ := hf
      exact ⟨rfl, encode_cCps_eq_compact_iff.mpr ⟨field_join h8 h5, rfl, h3, rfl, rfl, rfl⟩⟩

theorem decodeCompactMisc_isCodeOf (h12 : field h 12 4 = 0b1011#4) (hd : decodeCompactMisc h = .ok i) :
    IsCodeOf (.compact h) i := by
  have list {op : BitVec 3} {extra : Bool} (hop : field h 9 3 = op) (h8 : bit h 8 = extra) :
      Code.compact (0b1011#4 ++ op ++ BitVec.ofBool extra ++ field h 0 8) = .compact h :=
    compact_list_eq_compact_iff.mpr ⟨field_join h12 hop, h8, rfl⟩
  unfold decodeCompactMisc at hd
  split at hd
  next hop =>
    split at hd <;> cases hd
    next h7 =>
      exact ⟨rfl, compact_imm7_eq_compact_iff.mpr ⟨field_join (field_join h12 hop) (field_one_set h7), rfl⟩⟩
    next h7 =>
      exact ⟨rfl, compact_imm7_eq_compact_iff.mpr
        ⟨field_join (field_join h12 hop) (field_one_clear (Bool.eq_false_iff.mpr h7)), rfl⟩⟩
  next hop =>
    cases hd
    exact decodeCompactExtend_isCodeOf (field_join h12 hop)
  next hop =>
    cases hd
    exact ⟨rfl, list (op := 0b010#3) (extra := false) (field_inside hop 1 3) (bit_inside hop 0)⟩
  next hop =>
    cases hd
    exact ⟨rfl, list (op := 0b010#3) (extra := true) (field_inside hop 1 3) (bit_inside hop 0)⟩
  next hop => exact decodeCompactSetendCps_isCodeOf (field_join h12 hop) hd
  next hop =>
    cases hd
    exact decodeCompactReverse_isCodeOf (field_join h12 hop)
  next hop =>
    cases hd
    exact ⟨rfl, list (op := 0b110#3) (extra := false) (field_inside hop 1 3) (bit_inside hop 0)⟩
  next hop =>
    cases hd
    exact ⟨rfl, list (op := 0b110#3) (extra := true) (field_inside hop 1 3) (bit_inside hop 0)⟩
  next hop =>
    cases hd
    exact ⟨rfl, compact_imm8_eq_compact_iff.mpr ⟨field_join h12 hop, rfl⟩⟩
  next => cases hd

theorem cond_ofBits_eq_none_iff {b : BitVec 4} : Cond.ofBits b = none ↔ b = 0xF#4 := by
  revert b
  decide

theorem decodeCompactGroup6_isCodeOf (hk : field h 13 3 = 0b110#3) :
    IsCodeOf (.compact h) (decodeCompactGroup6 h) := by
  unfold decodeCompactGroup6
  split
  next h12 =>
    have top : field h 12 4 = 0b1101#4 := field_join hk (field_one_set h12)
    split
    next hF =>
      split
      next ht => exact ⟨rfl, compact_imm8_eq_compact_iff.mpr ⟨field_join top hF, ht⟩⟩
      next ht => exact ⟨bne_iff_ne.mpr ht, compact_imm8_eq_compact_iff.mpr ⟨field_join top hF, rfl⟩⟩
    next hF =>
      split
      next hc =>
        exact ⟨rfl, compact_imm8_eq_compact_iff.mpr ⟨field_join top (eq_cond_toBits_iff.mpr hc), rfl⟩⟩
      next c hal hc =>
        exact ⟨bne_iff_ne.mpr hal, encode_cBcond_eq_compact_iff.mpr ⟨top, hc, rfl⟩⟩
      next hc => exact absurd (cond_ofBits_eq_none_iff.mp hc) hF
  next h12 =>
    have clear12 := Bool.eq_false_iff.mpr h12
    split
    next h11 =>
      exact ⟨rfl, encCompactImm8_eq_compact_iff.mpr
        ⟨field_11_5_eq (b12 := 0b0#1) (b11 := 0b1#1) hk clear12 h11, rfl, rfl⟩⟩
    next h11 =>
      exact ⟨rfl, encCompactImm8_eq_compact_iff.mpr
        ⟨field_11_5_eq (b12 := 0b0#1) (b11 := 0b0#1) hk clear12 (Bool.eq_false_iff.mpr h11), rfl, rfl⟩⟩

theorem decodeCompactGroup7_isCodeOf (hk : field h 13 3 = 0b111#3) :
    IsCodeOf (.compact h) (decodeCompactGroup7 h) := by
  unfold decodeCompactGroup7
  split
  case h_4 =>
    have hoo : field h 11 2 = 0b11#2 := by
      simp only [imp_false] at *
      bv_omega
    exact ⟨rfl, encCompactImm11_eq_compact_iff.mpr ⟨field_join hk hoo, rfl⟩⟩
  all_goals
    rename_i hoo
    exact ⟨rfl, encCompactImm11_eq_compact_iff.mpr ⟨field_join hk hoo, rfl⟩⟩

theorem decodeCompact_isCodeOf (hd : decodeCompact h = .ok i) : IsCodeOf (.compact h) i := by
  unfold decodeCompact at hd
  split at hd
  next hk =>
    cases hd
    exact decodeCompactShiftAdd_isCodeOf hk
  next hk =>
    cases hd
    exact decodeCompactImm8_isCodeOf hk
  next hk => exact decodeCompactGroup2_isCodeOf hk hd
  next hk =>
    cases hd
    exact decodeCompactImmOffset_isCodeOf hk
  next hk =>
    cases hd
    exact decodeCompactHalfSp_isCodeOf hk
  next hk =>
    split at hd
    next h12 => exact decodeCompactMisc_isCodeOf (field_join hk (field_one_set h12)) hd
    next h12 =>
      have clear12 := Bool.eq_false_iff.mpr h12
      split at hd <;> cases hd
      next h11 =>
        exact ⟨rfl, encCompactImm8_eq_compact_iff.mpr
          ⟨field_11_5_eq (b12 := 0b0#1) (b11 := 0b1#1) hk clear12 h11, rfl, rfl⟩⟩
      next h11 =>
        exact ⟨rfl, encCompactImm8_eq_compact_iff.mpr
          ⟨field_11_5_eq (b12 := 0b0#1) (b11 := 0b0#1) hk clear12 (Bool.eq_false_iff.mpr h11), rfl, rfl⟩⟩
  next hk =>
    cases hd
    exact decodeCompactGroup6_isCodeOf hk
  next =>
    have hk : field h 13 3 = 0b111#3 := by
      simp only [imp_false] at *
      bv_omega
    cases hd
    exact decodeCompactGroup7_isCodeOf hk

end

/-! ## The half-word of a compact instruction decodes to it -/

section
variable {h : Half} {i : Instr}

theorem decodeCompact_misc (h12 : field h 12 4 = 0b1011#4) : decodeCompact h = decodeCompactMisc h := by
  have hk : field h 13 3 = 0b101#3 := field_inside h12 1 3
  have set12 : bit h 12 = true := bit_inside h12 0
  unfold decodeCompact
  rw [hk, set12]
  rfl

theorem decodeCompact_group2 (hk : field h 13 3 = 0b010#3) : decodeCompact h = decodeCompactGroup2 h := by
  unfold decodeCompact
  rw [hk]
  rfl

theorem decodeCompact_group6 (hk : field h 13 3 = 0b110#3) : decodeCompact h = .ok (decodeCompactGroup6 h) := by
  unfold decodeCompact
  rw [hk]
  rfl

theorem decodeCompact_alu (h10 : field h 10 6 = 0b010000#6) : decodeCompact h = .ok (decodeCompactAlu h) := by
  have h12 : bit h 12 = false := bit_inside h10 2
  have h11 : bit h 11 = false := bit_inside h10 1
  have clear10 : bit h 10 = false := bit_inside h10 0
  rw [decodeCompact_group2 (field_inside h10 3 3)]
  unfold decodeCompactGroup2
  rw [h12, h11, clear10]
  rfl

theorem decodeCompact_high (h10 : field h 10 6 = 0b010001#6) : decodeCompact h = decodeCompactHigh h := by
  have h12 : bit h 12 = false := bit_inside h10 2
  have h11 : bit h 11 = false := bit_inside h10 1
  have set10 : bit h 10 = true := bit_inside h10 0
  rw [decodeCompact_group2 (field_inside h10 3 3)]
  unfold decodeCompactGroup2
  rw [h12, h11, set10]
  rfl

theorem decodeCompact_swi (h8 : field h 8 8 = 0b11011111#8) : decodeCompact h =
    .ok (if field h 0 8 = compactTrapImm then .cSwiTrap else .cSwiOther (field h 0 8)) := by
  have h12 : bit h 12 = true := bit_inside h8 4
  have hF : field h 8 4 = 0xF#4 := field_inside h8 0 4
  rw [decodeCompact_group6 (field_inside h8 5 3)]
  unfold decodeCompactGroup6
  rw [h12, hF]
  rfl

theorem decodeCompactGroup6_cond {c : Cond} (h12 : bit h 12 = true) (hc : Cond.ofBits (field h 8 4) = some c)
    (hal : c ≠ .al) : decodeCompactGroup6 h = .cBcond c (field h 0 8) := by
  have h8 : field h 8 4 = c.toBits := eq_cond_toBits_iff.mpr hc
  unfold decodeCompactGroup6
  cases c
  case al => exact absurd rfl hal
  all_goals
    rw [h12, h8]
    rfl

theorem decodeCompact_eq_of_encode (hwf : i.wellFormed = true) (he : encode i = .compact h) :
    decodeCompact h = .ok i := by
  cases i with
  | cLslImm | cLsrImm | cAsrImm =>
    obtain ⟨hop, rfl, rfl, rfl⟩ := encCompactImm5_eq_compact_iff.mp he
    have hk : field h 13 3 = 0b000#3 := field_inside hop 2 3
    have hoo : field h 11 2 = _ := field_inside hop 0 2
    unfold decodeCompact decodeCompactShiftAdd
    rw [hk, hoo]
    rfl
  | cAddReg | cSubReg | cAddImm3 | cSubImm3 =>
    obtain ⟨hop, rfl, rfl, rfl⟩ := encCompact3_eq_compact_iff.mp he
    have hk : field h 13 3 = 0b000#3 := field_inside hop 4 3
    have hoo : field h 11 2 = 0b11#2 := field_inside hop 2 2
    have h10 : bit h 10 = _ := bit_inside hop 1
    have h9 : bit h 9 = _ := bit_inside hop 0
    unfold decodeCompact decodeCompactShiftAdd
    rw [hk, hoo, h10, h9]
    rfl
  | cMovImm8 | cCmpImm8 | cAddImm8 | cSubImm8 =>
    obtain ⟨hop, rfl, rfl⟩ := encCompactImm8_eq_compact_iff.mp he
    have hk : field h 13 3 = 0b001#3 := field_inside hop 2 3
    have hoo : field h 11 2 = _ := field_inside hop 0 2
    unfold decodeCompact decodeCompactImm8
    rw [hk, hoo]
    rfl
  | cAnd | cEor | cLsl | cLsr | cAsr | cAdc | cSbc | cRor | cTst | cNeg | cCmp | cCmn | cOrr | cMul | cBic | cMvn =>
    obtain ⟨hop, rfl, rfl⟩ := encCompact2_eq_compact_iff.mp he
    have h6 : field h 6 4 = _ := field_inside hop 0 4
    rw [decodeCompact_alu (field_inside hop 4 6)]
    unfold decodeCompactAlu
    rw [h6]
    rfl
  | cAddHi | cCmpHi | cMovHi =>
    obtain ⟨hop, hoo, rfl, rfl⟩ := encCompactHigh_eq_compact_iff.mp he
    rw [decodeCompact_high hop]
    unfold decodeCompactHigh
    rw [hoo]
    rfl
  | cBx | cBlxReg =>
    obtain ⟨hop, rfl, h0⟩ := compact_exchange_eq_compact_iff.mp he
    have hoo : field h 8 2 = 0b11#2 := field_inside hop 1 2
    have h7 : bit h 7 = _ := bit_inside hop 0
    rw [decodeCompact_high (field_inside hop 3 6), field_3_4_eq_highReg]
    unfold decodeCompactHigh
    rw [hoo, h0, h7]
    rfl
  | cLdrLit =>
    obtain ⟨hop, rfl, rfl⟩ := encCompactImm8_eq_compact_iff.mp he
    have h12 : bit h 12 = false := bit_inside hop 1
    have h11 : bit h 11 = true := bit_inside hop 0
    rw [decodeCompact_group2 (field_inside hop 2 3)]
    unfold decodeCompactGroup2
    rw [h12, h11]
    rfl
  | cAddPc | cAddSp =>
    obtain ⟨hop, rfl, rfl⟩ := encCompactImm8_eq_compact_iff.mp he
    have hk : field h 13 3 = 0b101#3 := field_inside hop 2 3
    have h12 : bit h 12 = false := bit_inside hop 1
    have h11 : bit h 11 = _ := bit_inside hop 0
    unfold decodeCompact
    rw [hk, h12, h11]
    rfl
  | cStmia | cLdmia =>
    obtain ⟨hop, rfl, rfl⟩ := encCompactImm8_eq_compact_iff.mp he
    have h12 : bit h 12 = false := bit_inside hop 1
    have h11 : bit h 11 = _ := bit_inside hop 0
    rw [decodeCompact_group6 (field_inside hop 2 3)]
    unfold decodeCompactGroup6
    rw [h12, h11]
    rfl
  | cStrSp | cLdrSp =>
    obtain ⟨hop, rfl, rfl⟩ := encCompactImm8_eq_compact_iff.mp he
    have hk : field h 13 3 = 0b100#3 := field_inside hop 2 3
    have h12 : bit h 12 = true := bit_inside hop 1
    have h11 : bit h 11 = _ := bit_inside hop 0
    unfold decodeCompact decodeCompactHalfSp
    rw [hk, h12, h11]
    rfl
  | cStrReg | cStrhReg | cStrbReg | cLdrsbReg | cLdrReg | cLdrhReg | cLdrbReg | cLdrshReg =>
    obtain ⟨hop, rfl, rfl, rfl⟩ := encCompact3_eq_compact_iff.mp he
    have h12 : bit h 12 = true := bit_inside hop 3
    have h9 : field h 9 3 = _ := field_inside hop 0 3
    rw [decodeCompact_group2 (field_inside hop 4 3)]
    unfold decodeCompactGroup2 decodeCompactRegOffset
    rw [h12, h9]
    rfl
  | cStrImm | cLdrImm | cStrbImm | cLdrbImm =>
    obtain ⟨hop, rfl, rfl, rfl⟩ := encCompactImm5_eq_compact_iff.mp he
    have hk : field h 13 3 = 0b011#3 := field_inside hop 2 3
    have h12 : bit h 12 = _ := bit_inside hop 1
    have h11 : bit h 11 = _ := bit_inside hop 0
    unfold decodeCompact decodeCompactImmOffset
    rw [hk, h12, h11]
    rfl
  | cStrhImm | cLdrhImm =>
    obtain ⟨hop, rfl, rfl, rfl⟩ := encCompactImm5_eq_compact_iff.mp he
    have hk : field h 13 3 = 0b100#3 := field_inside hop 2 3
    have h12 : bit h 12 = false := bit_inside hop 1
    have h11 : bit h 11 = _ := bit_inside hop 0
    unfold decodeCompact decodeCompactHalfSp
    rw [hk, h12, h11]
    rfl
  | cAddSpImm | cSubSpImm =>
    obtain ⟨hop, rfl⟩ := compact_imm7_eq_compact_iff.mp he
    have h8 : field h 8 4 = 0x0#4 := field_inside hop 1 4
    have h7 : bit h 7 = _ := bit_inside hop 0
    rw [decodeCompact_misc (field_inside hop 5 4)]
    unfold decodeCompactMisc
    rw [h8, h7]
    rfl
  | cSxth | cSxtb | cUxth | cUxtb =>
    obtain ⟨hop, rfl, rfl⟩ := encCompact2_eq_compact_iff.mp he
    have h8 : field h 8 4 = 0x2#4 := field_inside hop 2 4
    have hoo : field h 6 2 = _ := field_inside hop 0 2
    rw [decodeCompact_misc (field_inside hop 6 4)]
    unfold decodeCompactMisc decodeCompactExtend
    rw [h8, hoo]
    rfl
  | cRev | cRev16 | cRevUnalloc | cRevsh =>
    obtain ⟨hop, rfl, rfl⟩ := encCompact2_eq_compact_iff.mp he
    have h8 : field h 8 4 = 0xA#4 := field_inside hop 2 4
    have hoo : field h 6 2 = _ := field_inside hop 0 2
    rw [decodeCompact_misc (field_inside hop 6 4)]
    unfold decodeCompactMisc decodeCompactReverse
    rw [h8, hoo]
    rfl
  | cPush extra | cPop extra =>
    obtain ⟨hop, hx, rfl⟩ := compact_list_eq_compact_iff.mp he
    have h8 : field h 8 4 = _ :=
      field_join (n := 3) (m := 1) (field_inside hop 0 3) ((field_one_eq_iff h 8 _).mpr (hx.trans (bit_ofBool _).symm))
    rw [decodeCompact_misc (field_inside hop 3 4)]
    unfold decodeCompactMisc
    rw [h8]
    cases extra <;> rfl
  | cSetend =>
    obtain ⟨hop, rfl, h0⟩ := encode_cSetend_eq_compact_iff.mp he
    have h8 : field h 8 4 = 0x6#4 := field_inside hop 4 4
    have h4 : field h 4 4 = 0b0101#4 := field_inside hop 0 4
    rw [decodeCompact_misc (field_inside hop 8 4)]
    unfold decodeCompactMisc decodeCompactSetendCps
    rw [h8, h4, h0]
    rfl
  | cCps =>
    obtain ⟨hop, rfl, h3, rfl, rfl, rfl⟩ := encode_cCps_eq_compact_iff.mp he
    have h8 : field h 8 4 = 0x6#4 := field_inside hop 3 4
    have h5 : field h 5 3 = 0b011#3 := field_inside hop 0 3
    have other : ¬ (field h 4 4 = 0b0101#4 ∧ field h 0 3 = 0#3) := fun ⟨e, _⟩ =>
      absurd (h5.symm.trans (field_inside e 1 3)) (by decide)
    rw [decodeCompact_misc (field_inside hop 7 4)]
    unfold decodeCompactMisc decodeCompactSetendCps
    rw [h8, if_neg other, h5, h3]
    rfl
  | cBkpt =>
    obtain ⟨hop, rfl⟩ := compact_imm8_eq_compact_iff.mp he
    have h8 : field h 8 4 = 0xE#4 := field_inside hop 0 4
    rw [decodeCompact_misc (field_inside hop 4 4)]
    unfold decodeCompactMisc
    rw [h8]
    rfl
  | cBcond =>
    obtain ⟨hop, hc, rfl⟩ := encode_cBcond_eq_compact_iff.mp he
    rw [decodeCompact_group6 (field_inside hop 1 3), decodeCompactGroup6_cond (bit_inside hop 0) hc (bne_iff_ne.mp hwf)]
  | cBcond1110 =>
    obtain ⟨hop, rfl⟩ := compact_imm8_eq_compact_iff.mp he
    have h12 : bit h 12 = true := bit_inside hop 4
    have h8 : field h 8 4 = 0xE#4 := field_inside hop 0 4
    rw [decodeCompact_group6 (field_inside hop 5 3)]
    unfold decodeCompactGroup6
    rw [h12, h8]
    rfl
  | cSwiTrap =>
    obtain ⟨hop, h0⟩ := compact_imm8_eq_compact_iff.mp he
    rw [decodeCompact_swi hop, if_pos h0]
  | cSwiOther =>
    obtain ⟨hop, rfl⟩ := compact_imm8_eq_compact_iff.mp he
    rw [decodeCompact_swi hop, if_neg (bne_iff_ne.mp hwf)]
  | cB | cBlxSuffix | cBlPrefix | cBlSuffix =>
    obtain ⟨hop, rfl⟩ := encCompactImm11_eq_compact_iff.mp he
    have hk : field h 13 3 = 0b111#3 := field_inside hop 2 3
    have hoo : field h 11 2 = _ := field_inside hop 0 2
    unfold decodeCompact decodeCompactGroup7
    rw [hk, hoo]
    rfl
  | _ => exact Code.noConfusion he

end

/-! ## The decoder and the encoder are inverse to each other -/

/-- A code decodes to an instruction exactly when it is the code of that instruction. -/
theorem decode_eq_ok_iff {x : Code} {i : Instr} : decode x = .ok i ↔ IsCodeOf x i := by
  cases x with
  | wide w => exact ⟨decodeWide_isCodeOf, fun ⟨hwf, he⟩ => decodeWide_eq_of_encode hwf he⟩
  | compact h => exact ⟨decodeCompact_isCodeOf, fun ⟨hwf, he⟩ => decodeCompact_eq_of_encode hwf he⟩

/-- Settles O1: the code of an instruction decodes to it. -/
theorem decodeEncode : Obligations.DecodeEncode := fun _ hwf => decode_eq_ok_iff.mpr ⟨hwf, rfl⟩

/-- Settles O2: a code that decodes is that of its instruction. -/
theorem decodedIsEncoded : Obligations.DecodedIsEncoded := fun _ _ => decode_eq_ok_iff.mp

end Sys2Proof

/-! Which words are undefined, and which instructions raise UnimplementedInstruction. -/

namespace Sys2Proof.Machine

-- One proof at a time: elaborated in parallel they need more threads than the checker's memory limit admits.
set_option Elab.async false

/-- Settles O3: each word is the encoding of its instruction. -/
theorem decodeWords : Obligations.DecodeWords := by
  refine ⟨?_, ?_, ?_, ?_, ?_, ?_, ?_, ?_, ?_, ?_, ?_, ?_, ?_, ?_, ?_⟩
  all_goals exact decode_eq_ok_iff.mpr ⟨rfl, rfl⟩

/-! ## Words that select no row -/

section
variable {c : Cond} {w : Word}

theorem decodeMisc_ne_conditionReserved : decodeMisc c w ≠ .error .conditionReserved := by
  unfold decodeMisc decodeStatusMove decodeBxClz
  repeat' split
  all_goals simp

theorem decodeMsrImm_ne_conditionReserved : decodeMsrImm c w ≠ .error .conditionReserved := by
  unfold decodeMsrImm
  split <;> simp

theorem decodeDataImm_ne_conditionReserved : decodeDataImm c w ≠ .error .conditionReserved := by
  unfold decodeDataImm
  repeat' split
  all_goals simp [decodeMsrImm_ne_conditionReserved]

theorem decodeDataReg_ne_conditionReserved : decodeDataReg c w ≠ .error .conditionReserved := by
  unfold decodeDataReg
  repeat' split
  all_goals simp [decodeMisc_ne_conditionReserved]

theorem decodeDataRsr_ne_conditionReserved : decodeDataRsr c w ≠ .error .conditionReserved := by
  unfold decodeDataRsr
  repeat' split
  all_goals simp [decodeMisc_ne_conditionReserved]

theorem decodeClass0_ne_conditionReserved : decodeClass0 c w ≠ .error .conditionReserved := by
  unfold decodeClass0 decodeSwap decodeMultiply decodeExtra
  repeat' split
  all_goals simp [decodeDataReg_ne_conditionReserved, decodeDataRsr_ne_conditionReserved]

/-- A word with a condition is rejected only because it selects no row (30_encoding.md R99). -/
theorem decodeWide_error_of_cond {e : DecodeError} (hc : Cond.ofBits (field w 28 4) = some c)
    (h : decodeWide w = .error e) : e = .noRow := by
  cases e with
  | noRow => rfl
  | conditionReserved =>
    unfold decodeWide at h
    rw [hc] at h
    dsimp only at h
    split at h
    · exact absurd h decodeClass0_ne_conditionReserved
    · exact absurd h decodeDataImm_ne_conditionReserved
    · cases h
    · split at h <;> cases h
    · cases h

end

theorem step_of_undecoded {s : State} {w : Word} {e : DecodeError} (hrun : s.run = .running) (hf : fetch s = .ok w)
    (hd : decode (codeOfFetched s.mode w) = .error e) : step s = execUndecoded e (advance s w) := by
  simp only [step, hrun, hf, execFetched, hd]

theorem execUndecoded_compact {e : DecodeError} {s : State} (hm : s.mode = .compact) :
    execUndecoded e s = undefined s := by
  unfold execUndecoded
  rw [hm]
  cases e <;> rfl

theorem execUndecoded_reserved {e : DecodeError} {s : State} (hc : Cond.ofBits (field s.instr 28 4) = none) :
    execUndecoded e s = undefined s := by
  unfold execUndecoded
  rw [hc]
  cases e <;> cases s.mode <;> rfl

theorem execUndecoded_cond {s : State} {c : Cond} (hm : s.mode = .wide)
    (hc : Cond.ofBits (field s.instr 28 4) = some c) : execUndecoded .noRow s = whenPassed c s (undefined s) := by
  unfold execUndecoded
  rw [hm, hc]

/-- Settles O6: a wide word with a condition selects no row, and its condition is evaluated first. -/
theorem undecodedWord : Obligations.UndecodedWord := by
  intro s w e hrun hf hd
  have undef : faultsWith (.undefinedInstruction s.pc w) (advance s w) (undefined (advance s w)) :=
    raise_faultsWith _ _
  have conditional {c : Cond} (hm : s.mode = .wide) (hw : field w 28 4 = c.toBits) :
      step s = whenPassed c (advance s w) (undefined (advance s w)) := by
    have hc : Cond.ofBits (field w 28 4) = some c := eq_cond_toBits_iff.mp hw
    rw [hm] at hd
    obtain rfl := decodeWide_error_of_cond hc hd
    rw [step_of_undecoded hrun hf (by rwa [hm])]
    exact execUndecoded_cond (s := advance s w) hm hc
  refine ⟨fun hm => ?_, fun hm hw => ?_, fun c hm hw hp => ?_, fun c hm hw hp => ?_⟩
  · rw [step_of_undecoded hrun hf hd, execUndecoded_compact (s := advance s w) hm]
    exact undef
  · rw [step_of_undecoded hrun hf hd,
      execUndecoded_reserved (s := advance s w) (cond_ofBits_eq_none_iff.mpr hw)]
    exact undef
  · rw [conditional hm hw, whenPassed_true (s := advance s w) hp]
    exact undef
  · rw [conditional hm hw, whenPassed_false (s := advance s w) hp]

/-! ## Outcomes that are no UnimplementedInstruction -/

/-- The outcome is not the fault UnimplementedInstruction. -/
def Implemented (o : Out) : Prop := ∀ a w t, o ≠ .fault (.unimplementedInstruction a w t)

section
variable {s t : State}

theorem next_implemented : Implemented (.next t) := fun _ _ _ h => nomatch h

theorem refuse_implemented : Implemented (refuse s) := fun _ _ _ h => nomatch h

theorem undefined_implemented : Implemented (undefined s) := fun _ _ _ h => nomatch h

theorem accessFault_raise_implemented {a : Word} {w : Width} {k : FaultKind} (h : accessFault s a w = some k) :
    Implemented (raise k t) := by
  unfold accessFault at h
  repeat' split at h
  all_goals
    cases h
    try exact fun _ _ _ h => nomatch h

theorem dpWrite_implemented {sf : Bool} {rd : Reg} {r : AluOut} (h : (sf && rd == pcReg) = false) :
    Implemented (dpWrite sf rd r s) := by
  unfold dpWrite
  split
  · rename_i hrd
    have clear : sf = false := by simpa [hrd] using h
    simpa [clear] using next_implemented
  · exact next_implemented

theorem dpCompare_implemented {rd : Reg} {r : AluOut} (h : (rd == pcReg) = false) :
    Implemented (dpCompare rd r s) := by
  unfold dpCompare
  rw [if_neg (beq_eq_false_iff_ne.mp h)]
  exact next_implemented

theorem exchangeFromWide_implemented {target : Word} {linked : State} :
    Implemented (exchangeFromWide target linked s) := by
  unfold exchangeFromWide
  split
  · split
    · exact next_implemented
    · exact fun _ _ _ h => nomatch h
  · exact next_implemented

theorem highWrite_implemented {rd : Reg} {v : Word} : Implemented (highWrite rd v s) := by
  unfold highWrite
  split <;> exact next_implemented

theorem lsLoad_implemented {width : Width} {extend : Word → Word} {p u w : Bool} {rn rd : Reg} {offset : Word} :
    Implemented (lsLoad width extend p u w rn rd offset s) := by
  unfold lsLoad
  split
  · rename_i e
    exact accessFault_raise_implemented (memRead_error.mp e)
  · exact next_implemented

theorem lsStore_implemented {width : Width} {p u w : Bool} {rn rd : Reg} {offset : Word} :
    Implemented (lsStore width p u w rn rd offset s) := by
  unfold lsStore
  split
  · rename_i e
    exact accessFault_raise_implemented (memWrite_error.mp e)
  · exact next_implemented

theorem compactLoad_implemented {width : Width} {extend : Word → Word} {rd : LowReg} {addr : Word} :
    Implemented (compactLoad width extend rd addr s) := by
  unfold compactLoad
  split
  · rename_i e
    exact accessFault_raise_implemented (memRead_error.mp e)
  · exact next_implemented

theorem compactStore_implemented {width : Width} {rd : LowReg} {addr : Word} :
    Implemented (compactStore width rd addr s) := by
  unfold compactStore
  split
  · rename_i e
    exact accessFault_raise_implemented (memWrite_error.mp e)
  · exact next_implemented

/-! ## The instructions of several accesses -/

theorem loadRegs_stopped {k : FaultKind} (regs : List Reg) : ∀ {a : Word} {s : State},
    loadRegs regs a s = .stopped k t → ∃ s' a', accessFault s' a' .word = some k := by
  induction regs with
  | nil => exact fun h => nomatch h
  | cons r rest ih =>
    intro a s h
    unfold loadRegs at h
    split at h
    · rename_i e
      cases h
      exact ⟨_, _, memRead_error.mp e⟩
    · exact ih h

theorem storeRegs_stopped {k : FaultKind} (regs : List Reg) : ∀ {a : Word} {s : State},
    storeRegs regs a s = .stopped k t → ∃ s' a', accessFault s' a' .word = some k := by
  induction regs with
  | nil => exact fun h => nomatch h
  | cons r rest ih =>
    intro a s h
    unfold storeRegs at h
    split at h
    · rename_i e
      cases h
      exact ⟨_, _, memWrite_error.mp e⟩
    · exact ih h

theorem shimAccesses_stopped_kind {l : List ShimAccess} {k : FaultKind} (h : shimAccesses l s = .stopped k t) :
    ∃ a w, accessFault s a w = some k := by
  rcases shimAllowed_or_first s l with ha | ⟨before, x, after, k', rfl, ha, hx⟩
  · obtain ⟨a, e⟩ := shimAccesses_allowed l s ha
    rw [h] at e
    cases e
  · rw [shimAccesses_stopped before after x k' s ha hx] at h
    cases h
    exact ⟨_, _, hx⟩

theorem popPc_implemented {addr : Word} : Implemented (popPc addr s) := by
  unfold popPc
  split
  · rename_i e
    exact accessFault_raise_implemented (memRead_error.mp e)
  · split
    · exact next_implemented
    · split
      · exact next_implemented
      · exact fun _ _ _ h => nomatch h

theorem execCPush_implemented {lr : Bool} {list : BitVec 8} : Implemented (execCPush lr list s) := by
  unfold execCPush
  split
  · rename_i e
    obtain ⟨_, _, hk⟩ := storeRegs_stopped _ e
    exact accessFault_raise_implemented hk
  · exact next_implemented

theorem execCPop_implemented {pc : Bool} {list : BitVec 8} : Implemented (execCPop pc list s) := by
  unfold execCPop
  split
  · rename_i e
    obtain ⟨_, _, hk⟩ := loadRegs_stopped _ e
    exact accessFault_raise_implemented hk
  · cases pc with
    | false => exact next_implemented
    | true => exact popPc_implemented

theorem execCStmia_implemented {rn : LowReg} {list : BitVec 8} : Implemented (execCStmia rn list s) := by
  unfold execCStmia
  split
  · rename_i e
    obtain ⟨_, _, hk⟩ := storeRegs_stopped _ e
    exact accessFault_raise_implemented hk
  · exact next_implemented

theorem execCLdmia_implemented {rn : LowReg} {list : BitVec 8} : Implemented (execCLdmia rn list s) := by
  unfold execCLdmia
  split
  · rename_i e
    obtain ⟨_, _, hk⟩ := loadRegs_stopped _ e
    exact accessFault_raise_implemented hk
  · exact next_implemented

theorem trap_implemented : Implemented (trap s) := by
  unfold trap applyReply
  split
  · rename_i e
    obtain ⟨_, _, hk⟩ := shimAccesses_stopped_kind e
    exact accessFault_raise_implemented hk
  · split <;> exact next_implemented

end

/-! ## When UnimplementedInstruction is raised -/

/-- The outcome is UnimplementedInstruction, raised in `s`, exactly when the condition passes, the instruction is not
refused and it lacks an implementation (60_exceptions.md R446). -/
structure UnimplementedWhen (pass refused lacks : Bool) (s : State) (o : Out) : Prop where
  raised : pass = true → refused = false → lacks = true → o = unimplemented s
  only : pass = true ∧ refused = false ∧ lacks = true ∨ Implemented o

section
variable {s : State} {pass refused lacks : Bool}

theorem unimplemented_when : UnimplementedWhen true false true s (unimplemented s) :=
  ⟨fun _ _ _ => rfl, .inl ⟨rfl, rfl, rfl⟩⟩

theorem Implemented.when {o : Out} (h : Implemented o) : UnimplementedWhen pass refused false s o :=
  ⟨fun _ _ hl => (nomatch hl), .inr h⟩

theorem next_when {t : State} : UnimplementedWhen pass refused false s (.next t) := next_implemented.when

theorem whenPassed_when {c : Cond} {e : Out} (h : UnimplementedWhen true refused lacks s e) :
    UnimplementedWhen (condPassed c s) refused lacks s (whenPassed c s e) := by
  cases hp : condPassed c s with
  | true =>
    rw [whenPassed_true hp]
    exact h
  | false =>
    rw [whenPassed_false hp]
    exact ⟨fun hf => (nomatch hf), .inr next_implemented⟩

theorem unlessRefused_when {b : Bool} {e : Out} (hb : b = refused) (h : UnimplementedWhen true false lacks s e) :
    UnimplementedWhen true refused lacks s (unlessRefused b s e) := by
  subst hb
  cases b with
  | false => exact h
  | true => exact ⟨fun _ hf => (nomatch hf), .inr refuse_implemented⟩

theorem dpWrite_when {sf : Bool} {rd : Reg} {r : AluOut} :
    UnimplementedWhen true false (sf && rd == pcReg) s (dpWrite sf rd r s) := by
  cases h : sf && rd == pcReg with
  | false => exact (dpWrite_implemented h).when
  | true =>
    obtain ⟨hs, hrd⟩ := Bool.and_eq_true_iff.mp h
    rw [dpWrite, if_pos (beq_iff_eq.mp hrd), if_pos hs]
    exact unimplemented_when

theorem dpCompare_when {rd : Reg} {r : AluOut} :
    UnimplementedWhen true false (rd == pcReg) s (dpCompare rd r s) := by
  cases h : rd == pcReg with
  | false => exact (dpCompare_implemented h).when
  | true =>
    rw [dpCompare, if_pos (beq_iff_eq.mp h)]
    exact unimplemented_when

end

/-! ## The refusal predicates of the meanings are the rows of the refusal table (60_exceptions.md R463) -/

theorem rsrRefused_eq (sf : Bool) (rn rd rs rm : Reg) : rsrRefused sf rn rd rs rm =
    (rm == pcReg || rs == pcReg || rn == pcReg || (rd == pcReg && !sf)) := by
  rw [rsrRefused, Bool.and_comm]

theorem rsrMoveRefused_eq (sf : Bool) (rd rs rm : Reg) : rsrMoveRefused sf rd rs rm =
    (rm == pcReg || rs == pcReg || (rd == pcReg && !sf)) := by
  rw [rsrMoveRefused, Bool.and_comm]

theorem lsRegRefused_eq (p w : Bool) (rn rd rm : Reg) : lsRegRefused false p w rn rd rm =
    (rm == pcReg || ((!p || w) && (rn == pcReg || rn == rd)) || rd == pcReg) :=
  (Bool.or_assoc ..).symm

theorem lsRegRefused_pcAllowed (p w : Bool) (rn rd rm : Reg) : lsRegRefused true p w rn rd rm =
    (rm == pcReg || ((!p || w) && (rn == pcReg || rn == rd))) := by
  rw [lsRegRefused, lsRefused_pcAllowed]

theorem lsRegRefused_translated (rn rd rm : Reg) : lsRegRefused false false true rn rd rm =
    (rm == pcReg || rn == pcReg || rn == rd || rd == pcReg) := by
  rw [lsRegRefused_eq, Bool.or_assoc (rm == pcReg) (rn == pcReg)]
  rfl

/-- The cases are grouped by the shared operation that ends the instruction. -/
theorem exec_unimplementedWhen (i : Instr) (s : State) :
    UnimplementedWhen (conditionPasses i s) (refusedCombination i) (lacksImplementation i) s (exec i s) := by
  cases i with
  | andImm | andReg | eorImm | eorReg | subImm | subReg | rsbImm | rsbReg | addImm | addReg | adcImm | adcReg
  | sbcImm | sbcReg | rscImm | rscReg | orrImm | orrReg | movImm | movReg | bicImm | bicReg | mvnImm | mvnReg =>
    exact whenPassed_when dpWrite_when
  | andRsr | eorRsr | subRsr | rsbRsr | addRsr | adcRsr | sbcRsr | rscRsr | orrRsr | bicRsr =>
    exact whenPassed_when (unlessRefused_when (rsrRefused_eq ..) dpWrite_when)
  | movRsr | mvnRsr => exact whenPassed_when (unlessRefused_when (rsrMoveRefused_eq ..) dpWrite_when)
  | tstImm | tstReg | teqImm | teqReg | cmpImm | cmpReg | cmnImm | cmnReg => exact whenPassed_when dpCompare_when
  | tstRsr | teqRsr | cmpRsr | cmnRsr => exact whenPassed_when (unlessRefused_when rfl dpCompare_when)
  | mrs c saved rd =>
    refine whenPassed_when (unlessRefused_when rfl ?_)
    cases saved with
    | true => exact unimplemented_when
    | false => exact next_when
  | clz | mul => exact whenPassed_when (unlessRefused_when rfl next_when)
  | bx => exact whenPassed_when exchangeFromWide_implemented.when
  | blxReg => exact whenPassed_when (unlessRefused_when rfl exchangeFromWide_implemented.when)
  | msrReg | msrImm | bxj | qadd | qsub | qdadd | qdsub | bkpt | smlaXY | smlawSmulw | smlalXY | smulXY | mla | umaal
  | umull | umlal | smull | smlal | swp | swpb | strex | ldrex | ldrdImm | ldrdReg | strdImm | strdReg | ldrshImm
  | media | stm | ldm | copMem | copReg => exact whenPassed_when unimplemented_when
  | ldrhImm | ldrsbImm | ldrbImm | ldrtImm | ldrbtImm =>
    exact whenPassed_when (unlessRefused_when rfl lsLoad_implemented.when)
  | ldrImm => exact whenPassed_when (unlessRefused_when (lsRefused_pcAllowed ..) lsLoad_implemented.when)
  | ldrhReg | ldrsbReg | ldrshReg | ldrbReg =>
    exact whenPassed_when (unlessRefused_when (lsRegRefused_eq ..) lsLoad_implemented.when)
  | ldrReg => exact whenPassed_when (unlessRefused_when (lsRegRefused_pcAllowed ..) lsLoad_implemented.when)
  | ldrtReg | ldrbtReg =>
    exact whenPassed_when (unlessRefused_when (lsRegRefused_translated ..) lsLoad_implemented.when)
  | strhImm | strbImm | strtImm | strbtImm =>
    exact whenPassed_when (unlessRefused_when rfl lsStore_implemented.when)
  | strImm => exact whenPassed_when (unlessRefused_when (lsRefused_pcAllowed ..) lsStore_implemented.when)
  | strhReg | strbReg => exact whenPassed_when (unlessRefused_when (lsRegRefused_eq ..) lsStore_implemented.when)
  | strReg => exact whenPassed_when (unlessRefused_when (lsRegRefused_pcAllowed ..) lsStore_implemented.when)
  | strtReg | strbtReg =>
    exact whenPassed_when (unlessRefused_when (lsRegRefused_translated ..) lsStore_implemented.when)
  | b | bl | swiOther | cBcond => exact whenPassed_when next_when
  | swiTrap => exact whenPassed_when trap_implemented.when
  | cLslImm | cLsrImm | cAsrImm | cLsl | cLsr | cAsr | cRor | cAddReg | cSubReg | cAddImm3 | cSubImm3 | cAddImm8
  | cSubImm8 | cAdc | cSbc | cNeg | cMovImm8 | cAnd | cEor | cOrr | cMul | cBic | cMvn | cCmpImm8 | cCmp | cCmn
  | cCmpHi | cTst | cAddPc | cAddSp | cAddSpImm | cSubSpImm | cSxth | cSxtb | cUxth | cUxtb | cRev | cRev16 | cRevsh
  | cB | cBlPrefix | cBlSuffix | cBx => exact next_when
  | cAddHi | cMovHi => exact highWrite_implemented.when
  | cBlxReg => exact unlessRefused_when rfl next_when
  | cLdrLit | cLdrsbReg | cLdrReg | cLdrhReg | cLdrbReg | cLdrshReg | cLdrImm | cLdrbImm | cLdrhImm | cLdrSp =>
    exact compactLoad_implemented.when
  | cStrReg | cStrhReg | cStrbReg | cStrImm | cStrbImm | cStrhImm | cStrSp => exact compactStore_implemented.when
  | cPush => exact execCPush_implemented.when
  | cPop => exact execCPop_implemented.when
  | cStmia => exact execCStmia_implemented.when
  | cLdmia => exact execCLdmia_implemented.when
  | cSwiTrap => exact trap_implemented.when
  | cSetend | cCps | cBkpt | cSwiOther | cBlxSuffix => exact unimplemented_when
  | cRevUnalloc | cBcond1110 => exact undefined_implemented.when

/-- Settles O30: the fault, and nothing but the run state written, exactly under the three conditions. -/
theorem unimplementedExactly : Obligations.UnimplementedExactly := by
  intro i s
  have w := exec_unimplementedWhen i s
  refine ⟨fun hp hr hl => ?_, fun a d t h => ?_⟩
  · rw [w.raised hp hr hl]
    exact raise_faultsWith _ s
  · rcases w.only with hw | hi
    · exact hw
    · exact absurd h (hi a d t)

end Sys2Proof.Machine

/-! A failed condition, the adder and the shifter in unbounded arithmetic, and the conditions after a compare. -/

namespace Sys2Proof.Machine

/-! ## A failed condition -/

/-- A conditional instruction is some effect under its condition (40_cond_shifter_alu.md R132). -/
theorem exec_of_condOf {i : Instr} {c : Cond} (h : condOf i = some c) (s : State) :
    ∃ e, exec i s = whenPassed c s e := by
  cases i with
  | andImm | andReg | andRsr | eorImm | eorReg | eorRsr | subImm | subReg | subRsr | rsbImm | rsbReg | rsbRsr
  | addImm | addReg | addRsr | adcImm | adcReg | adcRsr | sbcImm | sbcReg | sbcRsr | rscImm | rscReg | rscRsr
  | tstImm | tstReg | tstRsr | teqImm | teqReg | teqRsr | cmpImm | cmpReg | cmpRsr | cmnImm | cmnReg | cmnRsr
  | orrImm | orrReg | orrRsr | movImm | movReg | movRsr | bicImm | bicReg | bicRsr | mvnImm | mvnReg | mvnRsr
  | mrs | msrReg | msrImm | bx | bxj | blxReg | clz | qadd | qsub | qdadd | qdsub | bkpt
  | smlaXY | smlawSmulw | smlalXY | smulXY | mul | mla | umaal | umull | umlal | smull | smlal
  | swp | swpb | strex | ldrex
  | strhImm | strhReg | ldrdImm | ldrdReg | strdImm | strdReg | ldrhImm | ldrhReg | ldrsbImm | ldrsbReg
  | ldrshImm | ldrshReg | strImm | strReg | strtImm | strtReg | ldrImm | ldrReg | ldrtImm | ldrtReg
  | strbImm | strbReg | strbtImm | strbtReg | ldrbImm | ldrbReg | ldrbtImm | ldrbtReg
  | media | stm | ldm | b | bl | copMem | copReg | swiTrap | swiOther | cBcond =>
    cases h
    exact ⟨_, rfl⟩
  | _ => exact nomatch h

/-- Settles O28: whatever the effect is, a failed condition passes over it. -/
theorem failedConditionDoesNothing : Obligations.FailedConditionDoesNothing := by
  intro i c s hi hc
  obtain ⟨e, he⟩ := exec_of_condOf hi s
  rw [he, whenPassed_false hc]

/-! ## The adder in unbounded arithmetic -/

/-- A signed value wraps exactly when it is out of range (40_cond_shifter_alu.md R152). -/
theorem ne_bmod_eq_outOfRange (x : Int) : decide (x ≠ x.bmod (2 ^ 32)) = outOfRange x := by
  rw [outOfRange, ← Bool.decide_or, decide_eq_decide, Int.bmod_def]
  omega

theorem ofNat_sum (a b : Word) (cin : Bool) :
    BitVec.ofNat 32 (a.toNat + b.toNat + cin.toNat) = sumOf a b cin := by
  cases cin <;> simp [sumOf, BitVec.ofNat_add]

theorem toInt_sumOf (a b : Word) (cin : Bool) :
    (sumOf a b cin).toInt = (a.toInt + b.toInt + cin.toNat).bmod (2 ^ 32) := by
  cases cin <;> simp [sumOf, BitVec.toInt_add]

theorem toInt_differenceOf (m d : Word) (cin : Bool) :
    (differenceOf m d cin).toInt = (m.toInt - d.toInt - (!cin).toNat).bmod (2 ^ 32) := by
  cases cin <;> simp [differenceOf, BitVec.toInt_sub]

theorem addWithCarry_eq (a b : Word) (cin : Bool) : addWithCarry a b cin =
    ⟨sumOf a b cin, decide (2 ^ 32 ≤ a.toNat + b.toNat + cin.toNat),
      outOfRange (a.toInt + b.toInt + cin.toNat)⟩ := by
  rw [addWithCarry, ofNat_sum, toInt_sumOf, ne_bmod_eq_outOfRange]

/-- Adding the complement is subtracting, one less (40_cond_shifter_alu.md R152). -/
theorem sumOf_not (m d : Word) (cin : Bool) : sumOf m (~~~d) cin = differenceOf m d cin := by
  cases cin <;> simp only [sumOf, differenceOf, Bool.false_eq_true, if_true, if_false] <;> bv_omega

theorem toInt_not_eq (d : Word) : (~~~d).toInt = -d.toInt - 1 := by
  have := d.isLt
  simp only [BitVec.toInt_eq_toNat_cond, BitVec.toNat_not]
  split <;> split <;> omega

theorem subWithCarry_eq (m d : Word) (cin : Bool) : subWithCarry m d cin =
    ⟨differenceOf m d cin, decide (d.toNat + (!cin).toNat ≤ m.toNat),
      outOfRange (m.toInt - d.toInt - (!cin).toNat)⟩ := by
  have carry : 2 ^ 32 ≤ m.toNat + (~~~d).toNat + cin.toNat ↔ d.toNat + (!cin).toNat ≤ m.toNat := by
    have := d.isLt
    rw [BitVec.toNat_not]
    cases cin <;> simp only [Bool.not_true, Bool.not_false, Bool.toNat_true, Bool.toNat_false] <;> omega
  have signed : m.toInt + (~~~d).toInt + cin.toNat = m.toInt - d.toInt - (!cin).toNat := by
    rw [toInt_not_eq]
    cases cin <;> simp only [Bool.not_true, Bool.not_false, Bool.toNat_true, Bool.toNat_false] <;> omega
  rw [subWithCarry, addWithCarry_eq, sumOf_not, decide_eq_decide.mpr carry, signed]

/-! ## The flags of a sum and of a difference -/

theorem bit_31_eq_msb (v : Word) : bit v 31 = v.msb := (BitVec.msb_eq_getLsbD_last v).symm

theorem setFlagsArith_addWithCarry (s : State) (a b : Word) (cin : Bool) :
    setFlagsArith s (addWithCarry a b cin) = sumFlagged true a b cin s := by
  rw [addWithCarry_eq, setFlagsArith, bit_31_eq_msb]
  rfl

theorem setFlagsArith_subWithCarry (s : State) (m d : Word) (cin : Bool) :
    setFlagsArith s (subWithCarry m d cin) = differenceFlagged true m d cin s := by
  rw [subWithCarry_eq, setFlagsArith, bit_31_eq_msb]
  rfl

section
variable {sf : Bool} {rd : Reg} {s : State}

theorem dpWrite_of_ne (r : AluOut) (h : rd ≠ pcReg) : dpWrite sf rd r s =
    .next (if sf then aluFlags r (s.setReg rd (aluValue r)) else s.setReg rd (aluValue r)) :=
  dpWrite_next.mpr (.inr ⟨h, rfl⟩)

theorem dpWrite_sum (a b : Word) (cin : Bool) (h : rd ≠ pcReg) :
    dpWrite sf rd (.arithmetic (addWithCarry a b cin)) s =
      .next (sumFlagged sf a b cin (s.setReg rd (sumOf a b cin))) := by
  rw [dpWrite_of_ne _ h, aluFlags, setFlagsArith_addWithCarry, aluValue, addWithCarry_eq]
  cases sf <;> rfl

theorem dpWrite_difference (m d : Word) (cin : Bool) (h : rd ≠ pcReg) :
    dpWrite sf rd (.arithmetic (subWithCarry m d cin)) s =
      .next (differenceFlagged sf m d cin (s.setReg rd (differenceOf m d cin))) := by
  rw [dpWrite_of_ne _ h, aluFlags, setFlagsArith_subWithCarry, aluValue, subWithCarry_eq]
  cases sf <;> rfl

end

theorem dpCompare_difference {rd : Reg} {s : State} (m d : Word) (cin : Bool) (h : rd ≠ pcReg) :
    dpCompare rd (.arithmetic (subWithCarry m d cin)) s = .next (differenceFlagged true m d cin s) :=
  dpCompare_next.mpr ⟨h, (setFlagsArith_subWithCarry s m d cin).symm⟩

theorem rsrRefused_of_ne {sf : Bool} {rn rd rs rm : Reg} (hd : rd ≠ pcReg) (hn : rn ≠ pcReg) (hs : rs ≠ pcReg)
    (hm : rm ≠ pcReg) : rsrRefused sf rn rd rs rm = false := by
  simp [rsrRefused, hd, hn, hs, hm]

theorem rsrCompareRefused_of_ne {rn rs rm : Reg} (hn : rn ≠ pcReg) (hs : rs ≠ pcReg) (hm : rm ≠ pcReg) :
    rsrCompareRefused rn rs rm = false := by
  simp [rsrCompareRefused, hn, hs, hm]

/-- Settles O18: no form is stopped, and each ends in the write of its sum or its difference. -/
theorem wideAddSubtract : Obligations.WideAddSubtract := by
  intro c sf rn rd s hc hd
  have add (a b : Word) (cin : Bool) := (whenPassed_true hc).trans (dpWrite_sum (sf := sf) (s := s) a b cin hd)
  have sub (m d : Word) (cin : Bool) := (whenPassed_true hc).trans (dpWrite_difference (sf := sf) (s := s) m d cin hd)
  have rsr {rs rm : Reg} {e o : Out} (hn : rn ≠ pcReg) (hs : rs ≠ pcReg) (hm : rm ≠ pcReg)
      (h : whenPassed c s e = o) : whenPassed c s (unlessRefused (rsrRefused sf rn rd rs rm) s e) = o := by
    rwa [unlessRefused_false (rsrRefused_of_ne hd hn hs hm)]
  exact
    ⟨fun _ _ => add .., fun _ _ _ => add .., fun _ _ _ hn hs hm => rsr hn hs hm (add ..),
      fun _ _ => add .., fun _ _ _ => add .., fun _ _ _ hn hs hm => rsr hn hs hm (add ..),
      fun _ _ => sub .., fun _ _ _ => sub .., fun _ _ _ hn hs hm => rsr hn hs hm (sub ..),
      fun _ _ => sub .., fun _ _ _ => sub .., fun _ _ _ hn hs hm => rsr hn hs hm (sub ..),
      fun _ _ => sub .., fun _ _ _ => sub .., fun _ _ _ hn hs hm => rsr hn hs hm (sub ..),
      fun _ _ => sub .., fun _ _ _ => sub .., fun _ _ _ hn hs hm => rsr hn hs hm (sub ..)⟩

/-! ## The conditions after a compare -/

theorem differenceOf_true (a b : Word) : differenceOf a b true = a - b := BitVec.sub_zero _

/-- N differs from V exactly when the unbounded signed difference is negative (40_cond_shifter_alu.md R152). -/
theorem msb_sub_bne_outOfRange (a b : Word) :
    ((a - b).msb != outOfRange (a.toInt - b.toInt)) = decide (a.toInt < b.toInt) := by
  have ha := a.toInt_lt
  have hb := b.toInt_lt
  have ha' := a.le_toInt
  have hb' := b.le_toInt
  rw [BitVec.msb_eq_toInt, BitVec.toInt_sub, Int.bmod_def, outOfRange, ← Bool.decide_or, Bool.eq_iff_iff, bne_iff_ne,
    Ne, decide_eq_decide, decide_eq_true_iff]
  omega

theorem sub_beq_zero (a b : Word) : (a - b == 0#32) = decide (a = b) := by
  rw [Bool.eq_iff_iff, beq_iff_eq, decide_eq_true_iff]
  bv_omega

theorem condPassed_differenceFlagged (c : Cond) (a b : Word) (s : State) :
    condPassed c (differenceFlagged true a b true s) =
      condHolds c (a - b).msb (decide (a = b)) (decide (b.toNat ≤ a.toNat)) (outOfRange (a.toInt - b.toInt)) := by
  have flags : differenceFlagged true a b true s = setFlags s (a - b).msb (decide (a = b))
      (decide (b.toNat ≤ a.toNat)) (outOfRange (a.toInt - b.toInt)) := by
    simp [differenceFlagged, flagged, setFlags, differenceOf_true, sub_beq_zero]
  simp [flags, condPassed, flagN, flagZ, flagC, flagV]

theorem answersCompare_differenceFlagged (a b : Word) (s : State) :
    answersCompare a b (differenceFlagged true a b true s) := by
  have signed := msb_sub_bne_outOfRange a b
  have notSigned : ((a - b).msb == outOfRange (a.toInt - b.toInt)) = decide (b.toInt ≤ a.toInt) := by
    rw [← Bool.not_inj_iff, ← bne, signed, ← decide_not, decide_eq_decide]
    omega
  simp only [answersCompare, condPassed_differenceFlagged, condHolds, signed, notSigned, ← decide_not,
    ← Bool.decide_and, ← Bool.decide_or, decide_eq_decide]
  refine ⟨trivial, trivial, trivial, Nat.not_le, ?_, ?_, trivial, trivial, ?_, ?_⟩
  · rw [← BitVec.toNat_inj]
    omega
  · rw [← BitVec.toNat_inj]
    omega
  · rw [← BitVec.toInt_inj]
    omega
  · rw [← BitVec.toInt_inj]
    omega

/-- Settles O13: each form ends in the flags of the difference of its operands, and those answer the comparisons. -/
theorem compareAnswersConditions : Obligations.CompareAnswersConditions := by
  have answers {a b : Word} {s : State} {o : Out} (h : o = .next (differenceFlagged true a b true s)) :
      ∃ t, o = .next t ∧ answersCompare a b t := ⟨_, h, answersCompare_differenceFlagged a b s⟩
  have compact (a b : Word) (s : State) : ∃ t, (.next (setFlagsArith s (subWithCarry a b true)) : Out) = .next t ∧
      answersCompare a b t := answers (congrArg _ (setFlagsArith_subWithCarry s a b true))
  refine ⟨fun c rn rd rot imm s hc hd => ?_, fun c rn rd amount sh rm s hc hd => ?_,
    fun c rn rd rs sh rm s hc hd hn hs hm => ?_, fun _ _ _ => compact .., fun _ _ _ => compact ..,
    fun _ _ _ => compact ..⟩
  · exact answers ((whenPassed_true hc).trans (dpCompare_difference _ _ _ hd))
  · exact answers ((whenPassed_true hc).trans (dpCompare_difference _ _ _ hd))
  · rw [← readWide_of_ne hn]
    exact answers ((whenPassed_true hc).trans
      ((unlessRefused_false (rsrCompareRefused_of_ne hn hs hm)).trans (dpCompare_difference _ _ _ hd)))

/-! ## The shifter in arithmetic -/

/-- A shift by the width or more leaves nothing, as the row of the table for such amounts says. -/
theorem shiftLsl_value (v : Word) (n : Nat) (cin : Bool) : (shiftLsl v n cin).value = v <<< n := by
  have gone (h : 32 ≤ n) : v <<< n = 0#32 := BitVec.shiftLeft_eq_zero h
  rw [shiftLsl]
  split
  · subst n; simp
  · split
    · rfl
    · split <;> exact (gone (by omega)).symm

theorem toNat_shiftLsl (v : Word) (n : Nat) (cin : Bool) :
    (shiftLsl v n cin).value.toNat = v.toNat * 2 ^ n % 2 ^ 32 := by
  rw [shiftLsl_value, BitVec.toNat_shiftLeft, Nat.shiftLeft_eq]

theorem shiftLsl_carry (v : Word) (n : Nat) (cin : Bool) :
    (shiftLsl v n cin).carry = if n = 0 then cin else (v.toNat * 2 ^ n).testBit 32 := by
  rw [Nat.testBit_mul_two_pow, BitVec.testBit_toNat, shiftLsl]
  split
  · rfl
  · split
    · have : n ≤ 32 := by omega
      simp [this, bit]
    · split
      · subst n; simp [bit]
      · have : ¬ n ≤ 32 := by omega
        simp [this]

theorem shiftLsr_value (v : Word) (n : Nat) (cin : Bool) : (shiftLsr v n cin).value = v >>> n := by
  have gone (h : 32 ≤ n) : v >>> n = 0#32 := BitVec.ushiftRight_eq_zero h
  rw [shiftLsr]
  split
  · subst n; simp
  · split
    · rfl
    · split <;> exact (gone (by omega)).symm

theorem toNat_shiftLsr (v : Word) (n : Nat) (cin : Bool) : (shiftLsr v n cin).value.toNat = v.toNat / 2 ^ n := by
  rw [shiftLsr_value, BitVec.toNat_ushiftRight, Nat.shiftRight_eq_div_pow]

theorem shiftLsr_carry (v : Word) (n : Nat) (cin : Bool) :
    (shiftLsr v n cin).carry = if n = 0 then cin else v.toNat.testBit (n - 1) := by
  rw [BitVec.testBit_toNat, shiftLsr]
  split
  · rfl
  · split
    · rfl
    · split
      · subst n; rfl
      · exact (BitVec.getLsbD_of_ge v (n - 1) (by omega)).symm

theorem sshiftRight_of_ge (v : Word) {n : Nat} (h : 32 ≤ n) :
    v.sshiftRight n = if v.msb then 0xFFFFFFFF#32 else 0#32 := by
  apply BitVec.eq_of_getLsbD_eq
  intro i hi
  have past : ¬ n + i < 32 := by omega
  have ones : 0xFFFFFFFF#32 = BitVec.allOnes 32 := rfl
  rw [BitVec.getLsbD_sshiftRight, if_neg past, ones]
  cases v.msb with
  | false => simp
  | true =>
    rw [if_pos rfl, BitVec.getLsbD_allOnes]
    simp [hi]

theorem shiftAsr_value (v : Word) (n : Nat) (cin : Bool) : (shiftAsr v n cin).value = v.sshiftRight n := by
  rw [shiftAsr]
  split
  · subst n; simp
  · split
    · rfl
    · rw [sshiftRight_of_ge v (by omega), bit_31_eq_msb]

theorem getLsbD_zero_eq_odd (x : Word) : x.getLsbD 0 = decide (x.toInt % 2 = 1) := by
  rw [← BitVec.testBit_toNat, Nat.testBit_zero, decide_eq_decide, BitVec.toInt_eq_toNat_cond]
  split <;> omega

/-- An arithmetic shift divides, rounding down. -/
theorem toInt_sshiftRight_eq_div (v : Word) (n : Nat) : (v.sshiftRight n).toInt = v.toInt / 2 ^ n := by
  rw [BitVec.toInt_sshiftRight, Int.shiftRight_eq_div_pow]
  simp

theorem toInt_shiftAsr (v : Word) (n : Nat) (cin : Bool) : (shiftAsr v n cin).value.toInt = v.toInt / 2 ^ n := by
  rw [shiftAsr_value, toInt_sshiftRight_eq_div]

/-- The carry of ASR is the last bit dropped, past the width a copy of the sign. -/
theorem shiftAsr_carry (v : Word) (n : Nat) (cin : Bool) :
    (shiftAsr v n cin).carry = if n = 0 then cin else decide (v.toInt / 2 ^ (n - 1) % 2 = 1) := by
  rw [← toInt_sshiftRight_eq_div, ← getLsbD_zero_eq_odd, BitVec.getLsbD_sshiftRight, shiftAsr]
  split
  · rfl
  · split
    · have : n - 1 < 32 := by omega
      simp [this, bit]
    · by_cases h : n = 32
      · subst n; simp [bit]
      · have : ¬ n - 1 < 32 := by omega
        simp [this, bit_31_eq_msb]

/-- The row of ROR for a multiple of 32 is the row for the other amounts: a rotation by 0, with bit 31 as carry. -/
theorem shiftRor_eq (v : Word) {n : Nat} (h : n ≠ 0) (cin : Bool) :
    shiftRor v n cin = ⟨rotateRight v (n % 32), bit v ((n + 31) % 32)⟩ := by
  rw [shiftRor, if_neg h]
  split
  · rename_i hz
    have last : (n + 31) % 32 = 31 := by omega
    rw [hz, last]
    rfl
  · have last : n % 32 - 1 = (n + 31) % 32 := by omega
    rw [last]

theorem getLsbD_shiftRor (v : Word) (n : Nat) (cin : Bool) {i : Nat} (hi : i < 32) :
    (shiftRor v n cin).value.getLsbD i = v.getLsbD ((i + n) % 32) := by
  by_cases h : n = 0
  · subst n
    rw [Nat.add_zero, Nat.mod_eq_of_lt hi]
    rfl
  · rw [shiftRor_eq v h, getLsbD_rotateRight v (Nat.mod_lt _ (by decide)) hi, Nat.add_mod_mod]

theorem shiftRor_carry (v : Word) (n : Nat) (cin : Bool) :
    (shiftRor v n cin).carry = if n = 0 then cin else v.getLsbD ((n + 31) % 32) := by
  split
  · subst n; rfl
  · rw [shiftRor_eq v ‹_›]
    rfl

/-! ## The amounts -/

/-- Only the field 0 is special (40_cond_shifter_alu.md R137). -/
theorem shiftByImm_of_ne_zero (t : ShiftType) (v : Word) {a : BitVec 5} (h : a ≠ 0#5) (cin : Bool) :
    shiftByImm t v a cin = shiftC t v a.toNat cin := by
  cases t with
  | lsl => rfl
  | lsr => rw [shiftByImm, amountOr32, if_neg h]
  | asr => rw [shiftByImm, amountOr32, if_neg h]
  | ror => rw [shiftByImm, if_neg h]

theorem toNat_shiftRrx (v : Word) (cin : Bool) : (shiftRrx v cin).value.toNat = cin.toNat * 2 ^ 31 + v.toNat / 2 := by
  have hv := v.isLt
  have low : (field v 1 31).toNat = v.toNat / 2 := by
    rw [field, BitVec.extractLsb'_toNat, Nat.shiftRight_eq_div_pow]
    omega
  rw [shiftRrx, BitVec.toNat_append, ← Nat.shiftLeft_add_eq_or_of_lt (BitVec.isLt _), Nat.shiftLeft_eq, low,
    BitVec.toNat_ofBool]

theorem shiftByReg_eq (t : ShiftType) (v amount : Word) (cin : Bool) :
    shiftByReg t v amount cin = shiftC t v (amount.toNat % 256) cin := by
  rw [shiftByReg, field, BitVec.extractLsb'_toNat, Nat.shiftRight_zero]

/-- Settles O14, from the value and the carry of each shift and the amounts above. -/
theorem shiftTable : Obligations.ShiftTable := fun v n cin =>
  ⟨⟨toNat_shiftLsl v n cin, shiftLsl_carry v n cin⟩, ⟨toNat_shiftLsr v n cin, shiftLsr_carry v n cin⟩,
    ⟨toInt_shiftAsr v n cin, shiftAsr_carry v n cin⟩,
    ⟨fun _ => getLsbD_shiftRor v n cin, shiftRor_carry v n cin⟩,
    fun t _ ha => shiftByImm_of_ne_zero t v ha cin, rfl, rfl, rfl,
    ⟨toNat_shiftRrx v cin, (BitVec.testBit_toNat v).symm⟩, fun t amount => shiftByReg_eq t v amount cin⟩

end Sys2Proof.Machine

/-! Wide data-processing: the logical opcodes, the moves, the compares, and the branch of a result written to
register 15. -/

namespace Sys2Proof.Machine

/-! ## The write of a result, and the flags of a compare -/

theorem setFlagsLogic_eq_logicFlagged (s : State) (v : Word) (carry : Bool) :
    setFlagsLogic s v carry = logicFlagged true v carry s := by
  rw [setFlagsLogic, bit_31_eq_msb]
  rfl

/-- A register write keeps V, so the V an update keeps is that before the instruction
(41_wide_data_processing.md R171). -/
theorem dpWrite_logical {sf : Bool} {rd : Reg} {s : State} (v : Word) (carry : Bool) (h : rd ≠ pcReg) :
    dpWrite sf rd (.logical v carry) s = .next (logicFlagged sf v carry (s.setReg rd v)) := by
  rw [dpWrite_of_ne _ h, aluFlags, setFlagsLogic_eq_logicFlagged, aluValue]
  cases sf <;> rfl

theorem dpCompare_logical {rd : Reg} {s : State} (v : Word) (carry : Bool) (h : rd ≠ pcReg) :
    dpCompare rd (.logical v carry) s = .next (logicFlagged true v carry s) :=
  dpCompare_next.mpr ⟨h, (setFlagsLogic_eq_logicFlagged s v carry).symm⟩

theorem dpCompare_sum {rd : Reg} {s : State} (a b : Word) (cin : Bool) (h : rd ≠ pcReg) :
    dpCompare rd (.arithmetic (addWithCarry a b cin)) s = .next (sumFlagged true a b cin s) :=
  dpCompare_next.mpr ⟨h, (setFlagsArith_addWithCarry s a b cin).symm⟩

/-- The branch of a result (41_wide_data_processing.md R172). -/
theorem dpWrite_pcReg (r : AluOut) (s : State) :
    dpWrite false pcReg r s = .next (s.setPc (aluValue r &&& 0xFFFFFFFC#32)) :=
  dpWrite_next.mpr (.inl ⟨rfl, rfl, rfl⟩)

theorem dpWrite_pcReg_sum (a b : Word) (cin : Bool) (s : State) :
    dpWrite false pcReg (.arithmetic (addWithCarry a b cin)) s =
      .next (s.setPc (sumOf a b cin &&& 0xFFFFFFFC#32)) := by
  rw [dpWrite_pcReg, aluValue, addWithCarry_eq]

theorem dpWrite_pcReg_difference (m d : Word) (cin : Bool) (s : State) :
    dpWrite false pcReg (.arithmetic (subWithCarry m d cin)) s =
      .next (s.setPc (differenceOf m d cin &&& 0xFFFFFFFC#32)) := by
  rw [dpWrite_pcReg, aluValue, subWithCarry_eq]

theorem rsrMoveRefused_of_ne {sf : Bool} {rd rs rm : Reg} (hd : rd ≠ pcReg) (hs : rs ≠ pcReg) (hm : rm ≠ pcReg) :
    rsrMoveRefused sf rd rs rm = false := by
  simp [rsrMoveRefused, hd, hs, hm]

theorem whenPassed_unlessRefused {c : Cond} {s : State} {b : Bool} {e o : Out} (hb : b = false)
    (h : whenPassed c s e = o) : whenPassed c s (unlessRefused b s e) = o := by
  rwa [unlessRefused_false hb]

/-! ## The families -/

/-- Settles O19: no form is stopped, and each ends in the flags of its relation. -/
theorem wideCompares : Obligations.WideCompares := by
  intro c rn rd s hc hd
  have logic (v : Word) (carry : Bool) := (whenPassed_true hc).trans (dpCompare_logical (s := s) v carry hd)
  have sub (m d : Word) (cin : Bool) := (whenPassed_true hc).trans (dpCompare_difference (s := s) m d cin hd)
  have add (a b : Word) (cin : Bool) := (whenPassed_true hc).trans (dpCompare_sum (s := s) a b cin hd)
  have rsr {rs rm : Reg} {e o : Out} (hn : rn ≠ pcReg) (hs : rs ≠ pcReg) (hm : rm ≠ pcReg) :=
    whenPassed_unlessRefused (c := c) (s := s) (e := e) (o := o) (rsrCompareRefused_of_ne hn hs hm)
  exact
    ⟨fun _ _ => logic .., fun _ _ _ => logic .., fun _ _ _ hn hs hm => rsr hn hs hm (logic ..),
      fun _ _ => logic .., fun _ _ _ => logic .., fun _ _ _ hn hs hm => rsr hn hs hm (logic ..),
      fun _ _ => sub .., fun _ _ _ => sub .., fun _ _ _ hn hs hm => rsr hn hs hm (sub ..),
      fun _ _ => add .., fun _ _ _ => add .., fun _ _ _ hn hs hm => rsr hn hs hm (add ..)⟩

/-- Settles O20: in both formats the result is the value of the opcode's relation, and it is masked into the program
counter. -/
theorem wideDataProcessingBranches : Obligations.WideDataProcessingBranches := by
  intro c rn s hc
  have logic (v : Word) (carry : Bool) := (whenPassed_true hc).trans (dpWrite_pcReg (.logical v carry) s)
  have add (a b : Word) (cin : Bool) := (whenPassed_true hc).trans (dpWrite_pcReg_sum a b cin s)
  have sub (m d : Word) (cin : Bool) := (whenPassed_true hc).trans (dpWrite_pcReg_difference m d cin s)
  exact
    ⟨fun _ _ => logic .., fun _ _ _ => logic .., fun _ _ => logic .., fun _ _ _ => logic ..,
      fun _ _ => logic .., fun _ _ _ => logic .., fun _ _ => logic .., fun _ _ _ => logic ..,
      fun _ _ => logic .., fun _ _ _ => logic .., fun _ _ => logic .., fun _ _ _ => logic ..,
      fun _ _ => add .., fun _ _ _ => add .., fun _ _ => add .., fun _ _ _ => add ..,
      fun _ _ => sub .., fun _ _ _ => sub .., fun _ _ => sub .., fun _ _ _ => sub ..,
      fun _ _ => sub .., fun _ _ _ => sub .., fun _ _ => sub .., fun _ _ _ => sub ..⟩

/-- Settles O16: no form is stopped, and each ends in the write of its logical result. -/
theorem wideLogical : Obligations.WideLogical := by
  intro c sf rn rd s hc hd
  have logic (v : Word) (carry : Bool) :=
    (whenPassed_true hc).trans (dpWrite_logical (sf := sf) (s := s) v carry hd)
  have rsr {rs rm : Reg} {e o : Out} (hn : rn ≠ pcReg) (hs : rs ≠ pcReg) (hm : rm ≠ pcReg) :=
    whenPassed_unlessRefused (c := c) (s := s) (e := e) (o := o) (rsrRefused_of_ne (sf := sf) hd hn hs hm)
  exact
    ⟨fun _ _ => logic .., fun _ _ _ => logic .., fun _ _ _ hn hs hm => rsr hn hs hm (logic ..),
      fun _ _ => logic .., fun _ _ _ => logic .., fun _ _ _ hn hs hm => rsr hn hs hm (logic ..),
      fun _ _ => logic .., fun _ _ _ => logic .., fun _ _ _ hn hs hm => rsr hn hs hm (logic ..),
      fun _ _ => logic .., fun _ _ _ => logic .., fun _ _ _ hn hs hm => rsr hn hs hm (logic ..)⟩

/-- Settles O17: as for the logical opcodes, and the Rn field takes no part in the refusal. -/
theorem wideMoves : Obligations.WideMoves := by
  intro c sf rn rd s hc hd
  have logic (v : Word) (carry : Bool) :=
    (whenPassed_true hc).trans (dpWrite_logical (sf := sf) (s := s) v carry hd)
  have rsr {rs rm : Reg} {e o : Out} (hs : rs ≠ pcReg) (hm : rm ≠ pcReg) :=
    whenPassed_unlessRefused (c := c) (s := s) (e := e) (o := o) (rsrMoveRefused_of_ne (sf := sf) hd hs hm)
  exact
    ⟨fun _ _ => logic .., fun _ _ _ => logic .., fun _ _ _ hs hm => rsr hs hm (logic ..),
      fun _ _ => logic .., fun _ _ _ => logic .., fun _ _ _ hs hm => rsr hs hm (logic ..)⟩

end Sys2Proof.Machine

/-! Wide MRS, CLZ, MUL, BX and BLX. -/

namespace Sys2Proof.Machine

/-! ## Leading zeros -/

theorem bit_of_two_pow_le {v : Word} {k : Nat} (hl : 2 ^ k ≤ v.toNat) (hu : v.toNat < 2 ^ (k + 1)) :
    bit v k = true :=
  Nat.testBit_of_two_pow_le_and_two_pow_add_one_gt hl hu

theorem bit_of_lt_two_pow {v : Word} {k j : Nat} (hu : v.toNat < 2 ^ k) (hj : k ≤ j) : bit v j = false :=
  Nat.testBit_lt_two_pow (hu.trans_le (Nat.pow_le_pow_right (by decide) hj))

theorem highestOne_eq_some {v : Word} {k : Nat} (hk : bit v k = true) (hz : ∀ j, k + 1 ≤ j → bit v j = false)
    {n : Nat} (hn : k < n) : highestOne v n = some k := by
  induction n with
  | zero => exact absurd hn (Nat.not_lt_zero k)
  | succ n ih =>
    rcases Nat.lt_succ_iff_lt_or_eq.mp hn with h | rfl
    · simp [highestOne, hz n h, ih h]
    · simp [highestOne, hk]

theorem leadingZeros_zero : leadingZeros 0#32 = 32#32 := rfl

/-- The highest 1 bit of a word is the power of two it lies above (42_wide_misc_multiply.md R206). -/
theorem leadingZeros_of_two_pow_le {v : Word} {k : Nat} (hl : 2 ^ k ≤ v.toNat) (hu : v.toNat < 2 ^ (k + 1)) :
    leadingZeros v = BitVec.ofNat 32 (31 - k) := by
  have hk : k < 32 := (Nat.pow_lt_pow_iff_right (by decide)).mp (hl.trans_lt v.isLt)
  have highest : highestOne v 32 = some k :=
    highestOne_eq_some (bit_of_two_pow_le hl hu) (fun _ => bit_of_lt_two_pow hu) hk
  rw [leadingZeros, highest]

/-! ## A refusal, and the flags of a product -/

theorem unlessRefused_true {b : Bool} {s : State} {e : Out} (h : b = true) : unlessRefused b s e = refuse s := by
  simp [unlessRefused, h]

/-- The product keeps C as well as V (42_wide_misc_multiply.md R210). -/
theorem setFlagsNZ_eq_logicFlagged (s : State) (v : Word) : setFlagsNZ s v = logicFlagged true v (flagC s) s :=
  setFlagsLogic_eq_logicFlagged s v (flagC s)

theorem ofNat_toNat_mul (a b : Word) : BitVec.ofNat 32 (a.toNat * b.toNat) = a * b := by
  rw [BitVec.ofNat_mul, BitVec.ofNat_toNat, BitVec.ofNat_toNat, BitVec.setWidth_eq, BitVec.setWidth_eq]

/-! ## The exchange -/

section
variable {target : Word} {linked s : State}

theorem exchangeFromWide_even (h : bit target 0 = false) :
    exchangeFromWide target linked s = .next (linked.setPc target) :=
  exchangeFromWide_next.mpr (.inl ⟨h, rfl⟩)

theorem exchangeFromWide_odd (h : bit target 0 = true) (hb : s.params.bidirSwitch = true) :
    exchangeFromWide target linked s = .next ((linked.setPc (target &&& 0xFFFFFFFE#32)).setMode .compact) :=
  exchangeFromWide_next.mpr (.inr ⟨h, hb, rfl⟩)

theorem exchangeFromWide_faultsWith (h : bit target 0 = true) (hb : s.params.bidirSwitch = false) :
    faultsWith (.modeSwitchUnsupported s.iaddr s.instr target) s (exchangeFromWide target linked s) := by
  simpa [exchangeFromWide, h, hb] using raise_faultsWith (.modeSwitchUnsupported s.iaddr s.instr target) s

end

/-! ## The instructions once their condition passes -/

section
variable {c : Cond} {s : State}

theorem exec_mrs {saved : Bool} {rd : Reg} (hc : condPassed c s = true) (hd : rd ≠ pcReg) :
    exec (.mrs c saved rd) s = if saved then unimplemented s else .next (s.setReg rd s.status) :=
  (whenPassed_true hc).trans (unlessRefused_false (beq_eq_false_iff_ne.mpr hd))

theorem exec_mrs_pcReg {saved : Bool} (hc : condPassed c s = true) : exec (.mrs c saved pcReg) s = refuse s :=
  (whenPassed_true hc).trans (unlessRefused_true rfl)

theorem exec_clz {rd rm : Reg} (hc : condPassed c s = true) (hd : rd ≠ pcReg) (hm : rm ≠ pcReg) :
    exec (.clz c rd rm) s = .next (s.setReg rd (leadingZeros (s.reg rm))) := by
  rw [← readWide_of_ne hm]
  exact (whenPassed_true hc).trans (unlessRefused_false (by simp [hd, hm]))

theorem exec_mul {sf : Bool} {rd rs rm : Reg} (hc : condPassed c s = true) (hd : rd ≠ pcReg) (hs : rs ≠ pcReg)
    (hm : rm ≠ pcReg) : exec (.mul c sf rd rs rm) s =
      .next (logicFlagged sf (s.reg rm * s.reg rs) (flagC s) (s.setReg rd (s.reg rm * s.reg rs))) := by
  rw [← readWide_of_ne hm, ← readWide_of_ne hs]
  refine (whenPassed_true hc).trans ((unlessRefused_false (by simp [hd, hs, hm])).trans ?_)
  cases sf with
  | false => rfl
  | true => exact congrArg Host.Outcome.next (setFlagsNZ_eq_logicFlagged _ _)

theorem exec_bx {rm : Reg} (hc : condPassed c s = true) :
    exec (.bx c rm) s = exchangeFromWide (readWide s rm) s s := whenPassed_true hc

theorem exec_blxReg {rm : Reg} (hc : condPassed c s = true) (hm : rm ≠ pcReg) :
    exec (.blxReg c rm) s = exchangeFromWide (s.reg rm) (s.setReg lrReg (s.iaddr + 4#32)) s := by
  rw [← readWide_of_ne hm]
  exact (whenPassed_true hc).trans (unlessRefused_false (beq_eq_false_iff_ne.mpr hm))

end

/-! ## The families -/

/-- Settles O21, from the lemma of each instruction: CLZ by the bounds of its operand, MUL by the product of the
words. -/
theorem wideStatusCountMultiply : Obligations.WideStatusCountMultiply := by
  intro c s hc
  refine ⟨fun rd hd => exec_mrs hc hd, fun rd hd => ?fault, fun _ => exec_mrs_pcReg hc,
    fun rd rm hd hm hz => ?zero, fun rd rm k hd hm hl hu => ?count, fun sf rd rs rm hd hs hm => ?product⟩
  case fault =>
    rw [exec_mrs hc hd]
    exact raise_faultsWith _ s
  case zero => rw [exec_clz hc hd hm, hz, leadingZeros_zero]
  case count => rw [exec_clz hc hd hm, leadingZeros_of_two_pow_le hl hu]
  case product => rw [ofNat_toNat_mul, exec_mul hc hd hs hm]

/-- Settles O22: BX and BLX are the same exchange, BLX with the link register written. The switched state is the
model's choice (log entry 10). -/
theorem wideExchange : Obligations.WideExchange := by
  intro c rm s hc
  have bx := exec_bx (rm := rm) hc
  have blx (hm : rm ≠ pcReg) := exec_blxReg hc hm
  refine ⟨fun h => bx.trans (exchangeFromWide_even h), fun h hb => bx.trans (exchangeFromWide_odd h hb),
    fun h hb => ?_, fun hm h => (blx hm).trans (exchangeFromWide_even h),
    fun hm h hb => (blx hm).trans (exchangeFromWide_odd h hb), fun hm h hb => ?_⟩
  · rw [bx]
    exact exchangeFromWide_faultsWith h hb
  · rw [blx hm]
    exact exchangeFromWide_faultsWith h hb

end Sys2Proof.Machine

/-! Wide single and extra loads and stores: the value a load extends, the outcome of the checked transfer once neither
the condition nor the refusal stops it, and the three families. -/

namespace Sys2Proof.Machine

/-! ## The values the signed loads extend -/

theorem field_setWidth {n k : Nat} (v : BitVec n) (h : n ≤ k) : field (v.setWidth k) 0 n = v := by
  rw [field, BitVec.extractLsb'_setWidth_of_le (by omega)]
  exact field_full v

/-- The sign of a loaded byte is its own bit 7 (43_wide_load_store.md R246). -/
theorem extendByte_memValue (m : Memory) (a : Nat) :
    extendByte (memValue m a .byte) = (memGet m a).signExtend 32 :=
  congrArg (BitVec.signExtend 32) (field_setWidth _ (by decide))

/-- The sign of a loaded half-word is bit 7 of its upper byte (43_wide_load_store.md R247). -/
theorem extendHalf_memValue (m : Memory) (a : Nat) :
    extendHalf (memValue m a .half) = (memGet m (a + 1) ++ memGet m a).signExtend 32 :=
  congrArg (BitVec.signExtend 32) (field_setWidth (k := 32) (memGet m (a + 1) ++ memGet m a) (by decide))

/-! ## The checked transfer (43_wide_load_store.md R235) -/

section
variable {c : Cond} {s : State} {b p u w : Bool} {rn rd : Reg} {width : Width} {offset : Word}

theorem lsLoad_reg {extend : Word → Word} (hd : rd ≠ pcReg)
    (h : accessFault s (lsAddr s p u rn offset) width = none) :
    lsLoad width extend p u w rn rd offset s = .next ((lsBase s p u w rn offset s).setReg rd
      (extend (memValue s.mem (lsAddr s p u rn offset).toNat width))) :=
  lsLoad_next.mpr ⟨h, (if_neg hd).symm⟩

theorem lsStore_faultsWith {k : FaultKind} (h : accessFault s (lsAddr s p u rn offset) width = some k) :
    faultsWith k s (lsStore width p u w rn rd offset s) := by
  simpa [lsStore, memWrite_error.mpr h] using raise_faultsWith k s

theorem whenPassed_unlessRefused_eq {e : Out} (hc : condPassed c s = true) (hb : b = false) :
    whenPassed c s (unlessRefused b s e) = e :=
  (whenPassed_true hc).trans (unlessRefused_false hb)

/-- A load that runs writes the base and then the extended value `v`, or faults with nothing written. -/
theorem load_completes_or_faults {extend : Word → Word} {v : Word} (hc : condPassed c s = true) (hd : rd ≠ pcReg)
    (hb : b = false) (hv : extend (memValue s.mem (lsAddr s p u rn offset).toNat width) = v) :
    (accessFault s (lsAddr s p u rn offset) width = none →
      whenPassed c s (unlessRefused b s (lsLoad width extend p u w rn rd offset s)) =
        .next ((lsBase s p u w rn offset s).setReg rd v)) ∧
    (∀ k, accessFault s (lsAddr s p u rn offset) width = some k →
      faultsWith k s (whenPassed c s (unlessRefused b s (lsLoad width extend p u w rn rd offset s)))) := by
  rw [whenPassed_unlessRefused_eq hc hb, ← hv]
  exact ⟨lsLoad_reg hd, fun _ => lsLoad_faultsWith⟩

/-- A store that runs writes memory and then the base, or faults with nothing written. -/
theorem store_completes_or_faults (hc : condPassed c s = true) (hb : b = false) :
    (accessFault s (lsAddr s p u rn offset) width = none →
      whenPassed c s (unlessRefused b s (lsStore width p u w rn rd offset s)) =
        .next (lsBase s p u w rn offset
          (s.setMem (memStore s.mem (lsAddr s p u rn offset).toNat (readWide s rd) width)))) ∧
    (∀ k, accessFault s (lsAddr s p u rn offset) width = some k →
      faultsWith k s (whenPassed c s (unlessRefused b s (lsStore width p u w rn rd offset s)))) := by
  rw [whenPassed_unlessRefused_eq hc hb]
  exact ⟨fun h => lsStore_next.mpr ⟨h, rfl⟩, fun _ => lsStore_faultsWith⟩

end

/-! ## The families

Each form is the checked transfer at its own address and width. The forms differ in how the refusal of their meaning
is the row of the refusal table (60_exceptions.md R463). -/

/-- Settles O24: the unsigned value is the memory value itself. -/
theorem wideWordByteLoads : Obligations.WideWordByteLoads := by
  intro c p u w rn rd s hc hd
  refine ⟨fun _ hr => ?ldrImm, fun _ _ _ hr => ?ldrReg, fun _ hr => ?ldrtImm, fun _ _ _ hr => ?ldrtReg,
    fun _ hr => ?ldrbImm, fun _ _ _ hr => ?ldrbReg, fun _ hr => ?ldrbtImm, fun _ _ _ hr => ?ldrbtReg⟩
  case ldrImm => exact load_completes_or_faults hc hd ((lsRefused_pcAllowed ..).trans hr) rfl
  case ldrReg => exact load_completes_or_faults hc hd ((lsRegRefused_pcAllowed ..).trans hr) rfl
  case ldrtImm | ldrbImm | ldrbtImm => exact load_completes_or_faults hc hd hr rfl
  case ldrbReg => exact load_completes_or_faults hc hd ((lsRegRefused_eq ..).trans hr) rfl
  case ldrtReg | ldrbtReg => exact load_completes_or_faults hc hd ((lsRegRefused_translated ..).trans hr) rfl

/-- Settles O25: the half-word of LDRH is the memory value itself, the signed loads extend it. -/
theorem wideExtraLoads : Obligations.WideExtraLoads := by
  intro c p u w rn rd s hc hd
  refine ⟨fun _ _ hr => ?ldrhImm, fun _ hr => ?ldrhReg, fun _ _ hr => ?ldrsbImm, fun _ hr => ?ldrsbReg,
    fun _ hr => ?ldrshReg⟩
  case ldrhImm => exact load_completes_or_faults hc hd hr rfl
  case ldrhReg => exact load_completes_or_faults hc hd ((lsRegRefused_eq ..).trans hr) rfl
  case ldrsbImm => exact load_completes_or_faults hc hd hr (extendByte_memValue ..)
  case ldrsbReg => exact load_completes_or_faults hc hd ((lsRegRefused_eq ..).trans hr) (extendByte_memValue ..)
  case ldrshReg => exact load_completes_or_faults hc hd ((lsRegRefused_eq ..).trans hr) (extendHalf_memValue ..)

/-- Settles O27: STR alone may name register 15 as Rd, and `readWide` stores it as `iaddr + 8`
(43_wide_load_store.md R237). -/
theorem wideStores : Obligations.WideStores := by
  intro c p u w rn rd s hc
  refine ⟨fun _ hr => ?strImm, fun _ _ _ hr => ?strReg, fun _ hr => ?strtImm, fun _ _ _ hr => ?strtReg,
    fun _ hr => ?strbImm, fun _ _ _ hr => ?strbReg, fun _ hr => ?strbtImm, fun _ _ _ hr => ?strbtReg,
    fun _ _ hr => ?strhImm, fun _ hr => ?strhReg⟩
  case strImm => exact store_completes_or_faults hc ((lsRefused_pcAllowed ..).trans hr)
  case strReg => exact store_completes_or_faults hc ((lsRegRefused_pcAllowed ..).trans hr)
  case strtImm | strbImm | strbtImm | strhImm => exact store_completes_or_faults hc hr
  case strbReg | strhReg => exact store_completes_or_faults hc ((lsRegRefused_eq ..).trans hr)
  case strtReg | strbtReg => exact store_completes_or_faults hc ((lsRegRefused_translated ..).trans hr)

end Sys2Proof.Machine

/-! Wide B, BL and SWI, and the trap of both modes. -/

namespace Sys2Proof.Machine

/-! ## The target of a wide branch (44_wide_branch_block_swi.md R260) -/

/-- A sign-extended immediate shifted left is a multiple of its signed value, modulo 2^32. -/
theorem signExtend_shiftLeft_eq_ofInt {n : Nat} (imm : BitVec n) (k : Nat) :
    imm.signExtend 32 <<< k = BitVec.ofInt 32 ((2 ^ k : Nat) * imm.toInt) := by
  have power : BitVec.twoPow 32 k = BitVec.ofInt 32 (2 ^ k : Nat) := by
    rw [BitVec.ofInt_natCast]
    exact BitVec.eq_of_toNat_eq (BitVec.toNat_twoPow 32 k)
  rw [BitVec.shiftLeft_eq_mul_twoPow, BitVec.mul_comm, power, BitVec.ofInt_mul]
  rfl

theorem wideBranchTarget_eq_ofInt (s : State) (imm24 : BitVec 24) :
    wideBranchTarget s imm24 = BitVec.ofInt 32 (s.iaddr.toInt + 8 + 4 * imm24.toInt) := by
  rw [wideBranchTarget, branchOffset4, signExtend_shiftLeft_eq_ofInt, BitVec.ofInt_add, BitVec.ofInt_add,
    BitVec.ofInt_toInt]
  rfl

theorem wideBranchTarget_aligned (s : State) (imm24 : BitVec 24) (h : s.iaddr.toNat % 4 = 0) :
    (wideBranchTarget s imm24).toNat % 4 = 0 := by
  simp only [wideBranchTarget, branchOffset4, BitVec.toNat_add, BitVec.toNat_shiftLeft, Nat.shiftLeft_eq,
    BitVec.toNat_ofNat]
  omega

/-! ## The instructions once their condition passes -/

section
variable {c : Cond} {s : State}

theorem exec_b {imm24 : BitVec 24} (hc : condPassed c s = true) :
    exec (.b c imm24) s = .next (s.setPc (wideBranchTarget s imm24)) := whenPassed_true hc

theorem exec_bl {imm24 : BitVec 24} (hc : condPassed c s = true) :
    exec (.bl c imm24) s = .next ((s.setReg lrReg (s.iaddr + 4#32)).setPc (wideBranchTarget s imm24)) :=
  whenPassed_true hc

theorem exec_swiOther {imm24 : BitVec 24} (hc : condPassed c s = true) : exec (.swiOther c imm24) s = .next s :=
  whenPassed_true hc

theorem exec_swiTrap (hc : condPassed c s = true) : exec (.swiTrap c) s = trap s := whenPassed_true hc

theorem exec_cSwiTrap : exec .cSwiTrap s = trap s := rfl

end

/-- Settles O23: the offset is added as a word, so the target is the signed sum modulo 2^32, and a multiple of 4
added to an aligned address. -/
theorem wideBranches : Obligations.WideBranches := by
  intro c imm24 s hc
  rw [← wideBranchTarget_eq_ofInt]
  exact ⟨exec_b hc, exec_bl hc, wideBranchTarget_aligned s imm24, exec_swiOther hc⟩

/-! ## The trap (60_exceptions.md R450, R451) -/

section
variable {s : State}

/-- The checks of an access raise two kinds of fault only, and both name its address (20_memory.md R60). -/
theorem accessFault_kind {a : Word} {w : Width} {k : FaultKind} (h : accessFault s a w = some k) :
    k = .segmentFault a ∨ k = .alignmentFault a := by
  unfold accessFault at h
  split at h
  · left
    split at h
    · split at h
      · cases h
      · exact (Option.some.inj h).symm
    · exact (Option.some.inj h).symm
  · exact .inr (Option.some.inj h).symm

theorem shimReply_cons {reply : ShimReply} {rest : List ShimReply} (h : s.shim = reply :: rest) :
    shimReply s = reply := by
  rw [shimReply, h]

theorem shimReply_nil (h : s.shim = []) : shimReply s =
    Config.hostShim s.shimCalls s.regs s.status s.segs s.mem s.params.stackTop s.params.stackSize := by
  rw [shimReply, h]

theorem shimAllowed_countTrap (l : List ShimAccess) : shimAllowed (countTrap s) l = shimAllowed s l :=
  shimAllowed_congr (s := countTrap s) (t := s) rfl rfl l

/-- A reply whose accesses pass their checks is done whole. -/
theorem trap_of_allowed (h : shimAllowed s (shimReply s).accesses = true) :
    trap s = .next ((((countTrap s).setMem (shimMemory (shimReply s).accesses s.mem)).setReg 0#4
      (shimReply s).result).setRun (if (shimReply s).ends then .terminated else s.run)) := by
  obtain ⟨a, e⟩ := shimAccesses_allowed _ (countTrap s) ((shimAllowed_countTrap _).trans h)
  rw [trap, applyReply, e]
  cases (shimReply s).ends <;> rfl

/-- The first access that fails its checks ends the trap, with the writes before it kept and `x[0]` not written. -/
theorem trap_of_first_failure {before after : List ShimAccess} {x : ShimAccess} {k : FaultKind}
    (hl : (shimReply s).accesses = before ++ x :: after) (hb : shimAllowed s before = true)
    (hx : accessFault s (shimTarget x).1 (shimTarget x).2 = some k) :
    trap s = raise k ((countTrap s).setMem (shimMemory before s.mem)) := by
  have stopped := shimAccesses_stopped before after x k (countTrap s) ((shimAllowed_countTrap _).trans hb)
    ((accessFault_setShim ..).trans hx)
  rw [trap, applyReply, hl, stopped]
  rfl

/-- A trap completes, or it raises a fault of the checks of an access. -/
theorem trap_completes_or_faults (s : State) : (∃ t, trap s = .next t) ∨
    ∃ a w k t, accessFault s a w = some k ∧ trap s = raise k t := by
  rcases shimAllowed_or_first s (shimReply s).accesses with h | ⟨before, x, after, k, hl, hb, hx⟩
  · exact .inl ⟨_, trap_of_allowed h⟩
  · exact .inr ⟨_, _, k, _, hx, trap_of_first_failure hl hb hx⟩

/-- A trap faults with the access that fails its checks and in no other way. -/
theorem trap_faultKind {f : Fault} (h : trap s = .fault f) :
    ∃ a, faultKind f = some (.segmentFault a) ∨ faultKind f = some (.alignmentFault a) := by
  rcases trap_completes_or_faults s with ⟨t, e⟩ | ⟨a, w, k, t, hk, e⟩ <;> rw [h] at e
  · cases e
  · obtain ⟨hf, -⟩ := raise_eq_fault e.symm
    rw [hf]
    exact ⟨a, (accessFault_kind hk).imp (congrArg some) (congrArg some)⟩

theorem trap_ne_refused (r : Refusal) : trap s ≠ .refused r := by
  rcases trap_completes_or_faults s with ⟨t, e⟩ | ⟨_, _, k, t, -, e⟩ <;> rw [e]
  · exact nofun
  · exact raise_ne_refused k t r

end

/-- Settles O59: either all accesses of the reply pass their checks or there is a first that fails them, and each
case has one outcome. Whose reply it is, and that a failing access ends the step, are the model's choices (log
entries 8 and 9). -/
theorem traps : Obligations.Traps := by
  intro s
  refine ⟨fun _ _ => shimReply_cons, shimReply_nil, trap_of_allowed, fun _ _ _ k hl hb hx => ?failure,
    fun _ hc => exec_swiTrap hc, fun _ => trap_faultKind, trap_ne_refused⟩
  case failure =>
    rw [exec_cSwiTrap, trap_of_first_failure hl hb hx]
    exact raise_faultsWith k _

end Sys2Proof.Machine

/-! The compact ALU: the shifts, the arithmetic, the compares, the logic, the high-register group, and BX and BLX. -/

namespace Sys2Proof.Machine

/-! ## The write of a result with its flags (45_compact_alu.md R280) -/

section
variable {rd : LowReg} {s : State}

theorem compactArith_sum (a b : Word) (cin : Bool) :
    compactArith rd (addWithCarry a b cin) s =
      .next (sumFlagged true a b cin (s.setReg (lowReg rd) (sumOf a b cin))) := by
  rw [compactArith, setFlagsArith_addWithCarry, addWithCarry_eq]

theorem compactArith_difference (m d : Word) (cin : Bool) :
    compactArith rd (subWithCarry m d cin) s =
      .next (differenceFlagged true m d cin (s.setReg (lowReg rd) (differenceOf m d cin))) := by
  rw [compactArith, setFlagsArith_subWithCarry, subWithCarry_eq]

theorem compactShift_eq_logicFlagged (r : Shifted) :
    compactShift rd r s = .next (logicFlagged true r.value r.carry (s.setReg (lowReg rd) r.value)) := by
  rw [compactShift, setFlagsLogic_eq_logicFlagged]

theorem compactShift_shiftByReg (t : ShiftType) (v amount : Word) (cin : Bool) :
    compactShift rd (shiftByReg t v amount cin) s =
      .next (logicFlagged true (shiftC t v (amount.toNat % 256) cin).value (shiftC t v (amount.toNat % 256) cin).carry
        (s.setReg (lowReg rd) (shiftC t v (amount.toNat % 256) cin).value)) := by
  rw [shiftByReg_eq, compactShift_eq_logicFlagged]

/-- The carry kept is that before the instruction, which a register write leaves. -/
theorem compactLogic_eq_logicFlagged (r : Word) :
    compactLogic rd r s = .next (logicFlagged true r (flagC s) (s.setReg (lowReg rd) r)) := by
  rw [compactLogic, setFlagsNZ_eq_logicFlagged]
  rfl

end

/-! ## The families of the low registers -/

/-- Settles O44: each form writes its sum or its difference. -/
theorem compactAddSubtract : Obligations.CompactAddSubtract := by
  intro s
  have add {rd : LowReg} (a b : Word) (cin : Bool) := compactArith_sum (rd := rd) (s := s) a b cin
  have sub {rd : LowReg} (m d : Word) (cin : Bool) := compactArith_difference (rd := rd) (s := s) m d cin
  exact
    ⟨fun _ _ _ => add .., fun _ _ _ => sub .., fun _ _ _ => add .., fun _ _ _ => sub .., fun _ _ => add ..,
      fun _ _ => sub .., fun _ _ => add .., fun _ _ => sub .., fun _ _ => sub ..⟩

/-- Settles O45: each form is one update of the flags, for CMP that of a difference, for CMN of a sum and for TST of
a logical result. -/
theorem compactCompares : Obligations.CompactCompares := by
  intro s
  have next {t u : State} (h : t = u) : (.next t : Out) = .next u := congrArg _ h
  have difference (m d : Word) := next (setFlagsArith_subWithCarry s m d true)
  have sum (a b : Word) := next (setFlagsArith_addWithCarry s a b false)
  have logic (r : Word) := next (setFlagsNZ_eq_logicFlagged s r)
  exact ⟨fun _ _ => difference .., fun _ _ => difference .., fun _ _ => sum .., fun _ _ => logic _,
    fun _ _ => difference ..⟩

/-- Settles O43: an immediate amount is the field with 0 read as 32 for LSR and ASR, a register amount its low byte. -/
theorem compactShifts : Obligations.CompactShifts := by
  intro s
  have byImm {rd : LowReg} (r : Shifted) := compactShift_eq_logicFlagged (rd := rd) (s := s) r
  have byReg {rd : LowReg} (t : ShiftType) (v amount : Word) :=
    compactShift_shiftByReg (rd := rd) (s := s) t v amount (flagC s)
  exact
    ⟨fun imm5 rm _ => byImm (shiftByImm .lsl (readLow s rm) imm5 (flagC s)),
      fun imm5 rm _ => byImm (shiftByImm .lsr (readLow s rm) imm5 (flagC s)),
      fun imm5 rm _ => byImm (shiftByImm .asr (readLow s rm) imm5 (flagC s)),
      fun _ _ => byReg .lsl .., fun _ _ => byReg .lsr .., fun _ _ => byReg .asr .., fun _ _ => byReg .ror ..⟩

/-- Settles O46: each form writes its logical result, and the product modulo 2^32 is the product of the words. -/
theorem compactLogicResults : Obligations.CompactLogic := by
  intro s
  have logic {rd : LowReg} (r : Word) := compactLogic_eq_logicFlagged (rd := rd) (s := s) r
  refine ⟨fun _ _ => logic _, fun _ _ => logic _, fun _ _ => logic _, fun _ _ => logic _, fun _ _ => logic _,
    fun _ _ => logic _, fun rm rd => ?product⟩
  case product =>
    rw [ofNat_toNat_mul]
    exact logic _

/-! ## The high registers, and register 15 as the destination (45_compact_alu.md R321, R323) -/

section
variable {rd : Reg} {s : State}

theorem readCompact_of_ne (h : rd ≠ pcReg) : readCompact s rd = s.reg rd := if_neg h

theorem readCompact_pcReg (s : State) : readCompact s pcReg = s.iaddr + 4#32 := if_pos rfl

theorem highWrite_of_ne (v : Word) (h : rd ≠ pcReg) : highWrite rd v s = .next (s.setReg rd v) := if_neg h

theorem highWrite_pcReg (v : Word) (s : State) : highWrite pcReg v s = .next (s.setPc (v &&& 0xFFFFFFFE#32)) :=
  if_pos rfl

end

/-- Settles O47: ADD and MOV are one write of the sum or the value, a branch for register 15. -/
theorem compactHighRegisters : Obligations.CompactHighRegisters := by
  intro rm rd s
  refine ⟨fun hd => ?add, ?addPc, fun hd => highWrite_of_ne _ hd, highWrite_pcReg ..⟩
  case add =>
    rw [← readCompact_of_ne hd]
    exact highWrite_of_ne _ hd
  case addPc =>
    rw [← readCompact_pcReg]
    exact highWrite_pcReg ..

/-! ## The exchange (45_compact_alu.md R325, R326) -/

/-- Clearing bit 0 rounds down to a multiple of 2. -/
theorem toNat_and_halfMask (v : Word) : (v &&& halfMask).toNat = v.toNat / 2 * 2 := by
  have mask : halfMask = BitVec.allOnes 32 <<< 1 := rfl
  rw [mask, ← BitVec.shiftLeft_ushiftRight, BitVec.toNat_shiftLeft, BitVec.toNat_ushiftRight, Nat.shiftLeft_eq,
    Nat.shiftRight_eq_div_pow]
  omega

theorem and_halfMask_of_even {v : Word} (h : bit v 0 = false) : v &&& halfMask = v := by
  have even : v.toNat % 2 = 0 := by
    rw [bit, ← BitVec.testBit_toNat, Nat.testBit_zero, decide_eq_false_iff_not] at h
    omega
  apply BitVec.eq_of_toNat_eq
  rw [toNat_and_halfMask]
  omega

section
variable {target : Word} {s : State}

theorem exchangeFromCompact_odd (h : bit target 0 = true) :
    exchangeFromCompact target s = .next (s.setPc (target &&& 0xFFFFFFFE#32)) :=
  exchangeFromCompact_next.mpr (if_pos h).symm

theorem exchangeFromCompact_even (h : bit target 0 = false) :
    exchangeFromCompact target s = .next ((s.setPc target).setMode .wide) := by
  rw [exchangeFromCompact_next, h, and_halfMask_of_even h]
  rfl

/-- The program counter is written before the mode is chosen, so it is even in both modes. -/
theorem exchangeFromCompact_pc {t : State} (h : exchangeFromCompact target s = .next t) :
    t.pc.toNat = target.toNat / 2 * 2 := by
  rw [exchangeFromCompact_next.mp h, ← toNat_and_halfMask]
  split
  · rw [State.pc_setPc]
  · rw [State.pc_setMode, State.pc_setPc]

theorem exec_cBx (rm : Reg) (s : State) : exec (.cBx rm) s = exchangeFromCompact (readCompact s rm) s := rfl

theorem exec_cBlxReg {rm : Reg} (hm : rm ≠ pcReg) :
    exec (.cBlxReg rm) s =
      exchangeFromCompact (s.reg rm) (s.setReg lrReg ((s.iaddr + 2#32) ||| 1#32)) := by
  rw [← readCompact_of_ne hm]
  exact unlessRefused_false (beq_eq_false_iff_ne.mpr hm)

end

/-- Settles O48: BX and BLX are the same exchange, BLX with the link register written. The switched state is the
model's choice (log entry 10). -/
theorem compactExchange : Obligations.CompactExchange := by
  intro rm s
  have bx := exec_cBx rm s
  have blx (hm : rm ≠ pcReg) := exec_cBlxReg (s := s) hm
  exact
    ⟨fun h => bx.trans (exchangeFromCompact_odd h), fun h => bx.trans (exchangeFromCompact_even h),
      fun hm h => (blx hm).trans (exchangeFromCompact_odd h),
      fun hm h => (blx hm).trans (exchangeFromCompact_even h),
      fun _ h => exchangeFromCompact_pc (bx.symm.trans h)⟩

end Sys2Proof.Machine

/-! The compact single loads and stores, and the address arithmetic on the program counter and the stack pointer. -/

namespace Sys2Proof.Machine

/-! ## Scaled immediates and the word-aligned base (30_encoding.md R103, 46_compact_load_store.md R340) -/

/-- A zero-extended immediate shifted left is a multiple of its value, modulo 2^32. -/
theorem setWidth_shiftLeft_eq_ofNat {n : Nat} (imm : BitVec n) (k : Nat) :
    imm.setWidth 32 <<< k = BitVec.ofNat 32 (2 ^ k * imm.toNat) := by
  apply BitVec.eq_of_toNat_eq
  rw [BitVec.toNat_shiftLeft, BitVec.toNat_setWidth, BitVec.toNat_ofNat, Nat.shiftLeft_eq, Nat.mod_mul_mod,
    Nat.mul_comm]

theorem scaled4_eq_ofNat {n : Nat} (imm : BitVec n) : scaled4 imm = BitVec.ofNat 32 (4 * imm.toNat) :=
  setWidth_shiftLeft_eq_ofNat imm 2

theorem scaled2_eq_ofNat {n : Nat} (imm : BitVec n) : scaled2 imm = BitVec.ofNat 32 (2 * imm.toNat) :=
  setWidth_shiftLeft_eq_ofNat imm 1

theorem scaled1_eq_ofNat {n : Nat} (imm : BitVec n) : scaled1 imm = BitVec.ofNat 32 (1 * imm.toNat) := by
  rw [← pow_zero 2, ← setWidth_shiftLeft_eq_ofNat, BitVec.shiftLeft_zero, scaled1]

theorem add_scaled4_eq_ofNat {n : Nat} (a : Word) (imm : BitVec n) :
    a + scaled4 imm = BitVec.ofNat 32 (a.toNat + 4 * imm.toNat) := by
  rw [BitVec.ofNat_add, BitVec.ofNat_toNat, BitVec.setWidth_eq, scaled4_eq_ofNat]

theorem sub_scaled4_eq_ofInt {n : Nat} (a : Word) (imm : BitVec n) :
    a - scaled4 imm = BitVec.ofInt 32 (a.toNat - 4 * (imm.toNat : Int)) := by
  have offset : BitVec.ofInt 32 (4 * (imm.toNat : Int)) = scaled4 imm :=
    (BitVec.ofInt_natCast 32 (4 * imm.toNat)).trans (scaled4_eq_ofNat imm).symm
  rw [Int.sub_eq_add_neg, BitVec.ofInt_add, BitVec.ofInt_neg, BitVec.ofInt_natCast, BitVec.ofNat_toNat,
    BitVec.setWidth_eq, offset, BitVec.sub_eq_add_neg]

/-- Clearing bits 1 and 0 rounds down to a multiple of 4. -/
theorem toNat_and_wordMask (v : Word) : (v &&& wordMask).toNat = v.toNat / 4 * 4 := by
  have mask : wordMask = BitVec.allOnes 32 <<< 2 := rfl
  rw [mask, ← BitVec.shiftLeft_ushiftRight, BitVec.toNat_shiftLeft, BitVec.toNat_ushiftRight, Nat.shiftLeft_eq,
    Nat.shiftRight_eq_div_pow]
  omega

theorem toNat_pcBase (s : State) : (pcBase s).toNat = (s.iaddr + 4#32).toNat / 4 * 4 := by
  rw [pcBase, readCompact_pcReg, toNat_and_wordMask]

theorem pcBase_add_scaled4 (s : State) (imm8 : BitVec 8) :
    pcBase s + scaled4 imm8 = BitVec.ofNat 32 ((s.iaddr + 4#32).toNat / 4 * 4 + 4 * imm8.toNat) := by
  rw [add_scaled4_eq_ofNat, toNat_pcBase]

/-- Settles O51: each scaled immediate is added to its base, or subtracted from it, as a number modulo 2^32. -/
theorem compactAddresses : Obligations.CompactAddresses := by
  intro s
  have written {rd : Reg} {v v' : Word} (h : v = v') : (.next (s.setReg rd v) : Out) = .next (s.setReg rd v') := by
    rw [h]
  exact
    ⟨fun _ _ => written (pcBase_add_scaled4 ..), fun _ _ => written (add_scaled4_eq_ofNat ..),
      fun _ => written (add_scaled4_eq_ofNat ..), fun _ => written (sub_scaled4_eq_ofInt ..)⟩

/-! ## The checked access (46_compact_load_store.md, the paragraph before R340) -/

section
variable {s : State} {width : Width} {rd : LowReg} {addr a : Word}

/-- A load at the address `a` writes the extended value `v`, or faults with nothing written. -/
theorem compactLoad_completes_or_faults {extend : Word → Word} {v : Word} (ha : addr = a)
    (hv : extend (memValue s.mem a.toNat width) = v) :
    (accessFault s a width = none → compactLoad width extend rd addr s = .next (s.setReg (lowReg rd) v)) ∧
    (∀ k, accessFault s a width = some k → faultsWith k s (compactLoad width extend rd addr s)) := by
  subst ha hv
  refine ⟨fun h => compactLoad_next.mpr ⟨h, rfl⟩, fun k h => ?_⟩
  simpa [compactLoad, memRead_error.mpr h] using raise_faultsWith k s

/-- A store at the address `a` writes memory, or faults with nothing written. -/
theorem compactStore_completes_or_faults (ha : addr = a) :
    (accessFault s a width = none →
      compactStore width rd addr s = .next (s.setMem (memStore s.mem a.toNat (s.reg (lowReg rd)) width))) ∧
    (∀ k, accessFault s a width = some k → faultsWith k s (compactStore width rd addr s)) := by
  subst ha
  refine ⟨fun h => compactStore_next.mpr ⟨h, rfl⟩, fun k h => ?_⟩
  simpa [compactStore, memWrite_error.mpr h] using raise_faultsWith k s

end

/-- Settles O49: each form is the checked load at its own address. The unsigned value is the memory value itself. -/
theorem compactLoads : Obligations.CompactLoads := by
  intro s
  refine ⟨fun _ _ => ?ldrLit, fun _ _ _ => ?ldrsbReg, fun _ _ _ => ?ldrReg, fun _ _ _ => ?ldrhReg,
    fun _ _ _ => ?ldrbReg, fun _ _ _ => ?ldrshReg, fun _ _ _ => ?ldrImm, fun _ _ _ => ?ldrbImm,
    fun _ _ _ => ?ldrhImm, fun _ _ => ?ldrSp⟩
  case ldrLit => exact compactLoad_completes_or_faults (pcBase_add_scaled4 ..) rfl
  case ldrReg | ldrhReg | ldrbReg => exact compactLoad_completes_or_faults rfl rfl
  case ldrsbReg => exact compactLoad_completes_or_faults rfl (extendByte_memValue ..)
  case ldrshReg => exact compactLoad_completes_or_faults rfl (extendHalf_memValue ..)
  case ldrImm | ldrSp => exact compactLoad_completes_or_faults (congrArg _ (scaled4_eq_ofNat _)) rfl
  case ldrbImm => exact compactLoad_completes_or_faults (congrArg _ (scaled1_eq_ofNat _)) rfl
  case ldrhImm => exact compactLoad_completes_or_faults (congrArg _ (scaled2_eq_ofNat _)) rfl

/-- Settles O50: each form is the checked store at its own address. -/
theorem compactStores : Obligations.CompactStores := by
  intro s
  refine ⟨fun _ _ _ => ?strReg, fun _ _ _ => ?strhReg, fun _ _ _ => ?strbReg, fun _ _ _ => ?strImm,
    fun _ _ _ => ?strhImm, fun _ _ _ => ?strbImm, fun _ _ => ?strSp⟩
  case strReg | strhReg | strbReg => exact compactStore_completes_or_faults rfl
  case strImm | strSp => exact compactStore_completes_or_faults (congrArg _ (scaled4_eq_ofNat _))
  case strhImm => exact compactStore_completes_or_faults (congrArg _ (scaled2_eq_ofNat _))
  case strbImm => exact compactStore_completes_or_faults (congrArg _ (scaled1_eq_ofNat _))

end Sys2Proof.Machine

/-! The compact transfers of several words: PUSH, STMIA, LDMIA and POP. -/

namespace Sys2Proof.Machine

/-! ## Register lists (46_compact_load_store.md R365) -/

theorem mem_lowRegs (r : Reg) : r ∈ ([0#4, 1#4, 2#4, 3#4, 4#4, 5#4, 6#4, 7#4] : List Reg) ↔ r.toNat < 8 := by
  revert r
  decide

theorem mem_listRegs {list : BitVec 8} {r : Reg} : r ∈ listRegs list ↔ r.toNat < 8 ∧ list.getLsbD r.toNat = true := by
  rw [listRegs, List.mem_filter, mem_lowRegs]
  rfl

theorem listRegs_ascending (list : BitVec 8) : (listRegs list).Pairwise fun q r => q.toNat < r.toNat :=
  List.Pairwise.filter _ (by decide)

theorem pushRegs_false (list : BitVec 8) : pushRegs false list = listRegs list := List.append_nil _

/-! ## Transfers that run to their end -/

/-- The `n` consecutive words from an address all pass their checks (20_memory.md R60). -/
def WordsAllowed (s : State) (base : Word) (n : Nat) : Prop :=
  ∀ j, j < n → accessFault s (base + BitVec.ofNat 32 (4 * j)) .word = none

theorem WordsAllowed.congr {s t : State} {base : Word} {n : Nat} (h : WordsAllowed s base n) (hs : t.segs = s.segs)
    (hp : t.params = s.params) : WordsAllowed t base n :=
  fun j hj => (accessFault_congr hs hp ..).trans (h j hj)

/-- The memory `m` is that of `s` with the registers stored at the ascending words from an address. -/
structure Stored (s : State) (base : Word) (regs : List Reg) (m : Memory) : Prop where
  word : ∀ (j : Nat) (h : j < regs.length), memValue m (base + BitVec.ofNat 32 (4 * j)).toNat .word = s.reg regs[j]
  kept : ∀ a, outside (wordsFrom base regs.length) a → memGet m a = memGet s.mem a

/-- The state `u` is `s` with the registers loaded from the ascending words from an address. -/
structure Loaded (s : State) (base : Word) (regs : List Reg) (u : State) : Prop where
  word : ∀ (j : Nat) (h : j < regs.length), u.reg regs[j] = memValue s.mem (base + BitVec.ofNat 32 (4 * j)).toNat .word
  kept : ∀ q : Reg, q ∉ regs → u.reg q = s.reg q
  only_regs : u = { s with regs := u.regs }

section
variable {s t u : State} {base addr : Word} {regs : List Reg}

theorem Loaded.mem_eq (h : Loaded s base regs u) : u.mem = s.mem := by rw [h.only_regs]

theorem Loaded.status_eq (h : Loaded s base regs u) : u.status = s.status := by rw [h.only_regs]

theorem Loaded.mode_eq (h : Loaded s base regs u) : u.mode = s.mode := by rw [h.only_regs]

theorem Loaded.params_eq (h : Loaded s base regs u) : u.params = s.params := by rw [h.only_regs]

theorem Loaded.iaddr_eq (h : Loaded s base regs u) : u.iaddr = s.iaddr := by rw [h.only_regs]

theorem Loaded.instr_eq (h : Loaded s base regs u) : u.instr = s.instr := by rw [h.only_regs]

theorem Loaded.accessFault_eq (h : Loaded s base regs u) (a : Word) (w : Width) :
    accessFault u a w = accessFault s a w :=
  accessFault_congr (by rw [h.only_regs]) h.params_eq a w

/-- Registers that are all stored passed the checks of all their words. -/
theorem storeRegs_done (hn : regs.length < 2 ^ 20) (h : storeRegs regs base s = .done addr t) :
    WordsAllowed s base regs.length ∧ ∃ m, t = s.setMem m ∧ Stored s base regs m := by
  obtain ⟨k, m, _, allowed, word, kept, ⟨rfl, b, e⟩ | ⟨-, kind, -, e⟩⟩ := storeRegs_spec regs hn base s <;> rw [h] at e
  · cases e
    exact ⟨allowed, m, rfl, word, kept⟩
  · cases e

theorem storeRegs_of_allowed (hn : regs.length < 2 ^ 20) (h : WordsAllowed s base regs.length) :
    ∃ b m, storeRegs regs base s = .done b (s.setMem m) ∧ Stored s base regs m := by
  obtain ⟨k, m, _, -, word, kept, ⟨rfl, b, e⟩ | ⟨hk, kind, stopped, -⟩⟩ := storeRegs_spec regs hn base s
  · exact ⟨b, m, e, word, kept⟩
  · rw [h k hk] at stopped
    cases stopped

theorem loadRegs_of_allowed (hn : regs.Nodup) (h : WordsAllowed s base regs.length) :
    ∃ u, loadRegs regs base s = .done (base + BitVec.ofNat 32 (4 * regs.length)) u ∧ Loaded s base regs u := by
  rcases loadRegs_spec regs hn base s with ⟨u, e, -, word, kept, only⟩ | ⟨k, kind, -, hk, -, -, stopped, -⟩
  · exact ⟨u, e, word, kept, only⟩
  · rw [h k hk] at stopped
    cases stopped

end

/-! ## PUSH and STMIA (46_compact_load_store.md R365, R369) -/

section
variable {s t : State} {list : BitVec 8}

theorem exec_cPush (lr : Bool) : exec (.cPush lr list) s = execCPush lr list s := rfl

theorem exec_cStmia (rn : LowReg) : exec (.cStmia rn list) s = execCStmia rn list s := rfl

theorem exec_cPush_of_allowed {lr : Bool}
    (h : WordsAllowed s (pushStart s lr list) (pushRegs lr list).length) :
    ∃ m, exec (.cPush lr list) s = .next ((s.setMem m).setReg spReg (pushStart s lr list)) ∧
      Stored s (pushStart s lr list) (pushRegs lr list) m := by
  obtain ⟨b, m, e, stored⟩ := storeRegs_of_allowed (pushRegs_length_lt lr list) h
  refine ⟨m, ?_, stored⟩
  rw [exec_cPush, execCPush, e]

/-- A PUSH completes only if all its words pass their checks. -/
theorem exec_cPush_next {lr : Bool} (h : exec (.cPush lr list) s = .next t) :
    WordsAllowed s (pushStart s lr list) (pushRegs lr list).length ∧
      ∃ m, t = (s.setMem m).setReg spReg (pushStart s lr list) ∧
        Stored s (pushStart s lr list) (pushRegs lr list) m := by
  rw [exec_cPush, execCPush] at h
  split at h
  · simp at h
  · rename_i e
    obtain ⟨allowed, m, rfl, stored⟩ := storeRegs_done (pushRegs_length_lt lr list) e
    cases h
    exact ⟨allowed, m, rfl, stored⟩

theorem exec_cStmia_of_allowed {rn : LowReg} (h : WordsAllowed s (s.reg (lowReg rn)) (listRegs list).length) :
    ∃ m, exec (.cStmia rn list) s =
        .next ((s.setMem m).setReg (lowReg rn) (s.reg (lowReg rn) + BitVec.ofNat 32 (4 * (listRegs list).length))) ∧
      Stored s (s.reg (lowReg rn)) (listRegs list) m := by
  obtain ⟨b, m, e, stored⟩ := storeRegs_of_allowed (listRegs_length_lt list) h
  refine ⟨m, ?_, stored⟩
  rw [exec_cStmia, execCStmia, readLow, e, listBytes]

end

/-- Settles O53: the words of a transfer that runs to its end, then the write of the base. -/
theorem multipleStores : Obligations.MultipleStores := by
  intro s
  refine ⟨fun _ _ => mem_listRegs, listRegs_ascending, fun _ _ => ⟨rfl, rfl⟩, fun lr list h => ?push,
    fun rn list h => ?stmia⟩
  case push =>
    obtain ⟨m, e, stored⟩ := exec_cPush_of_allowed h
    exact ⟨m, e, stored.word, stored.kept⟩
  case stmia =>
    obtain ⟨m, e, stored⟩ := exec_cStmia_of_allowed h
    exact ⟨m, e, stored.word, stored.kept⟩

/-! ## LDMIA and POP (46_compact_load_store.md R366, R368) -/

section
variable {s u : State} {list : BitVec 8} {base last : Word}

theorem exec_cLdmia (rn : LowReg) : exec (.cLdmia rn list) s = execCLdmia rn list s := rfl

theorem exec_cPop (pc : Bool) : exec (.cPop pc list) s = execCPop pc list s := rfl

theorem exec_cLdmia_of_allowed {rn : LowReg} (h : WordsAllowed s (s.reg (lowReg rn)) (listRegs list).length) :
    ∃ u, exec (.cLdmia rn list) s =
        .next (u.setReg (lowReg rn) (s.reg (lowReg rn) + BitVec.ofNat 32 (4 * (listRegs list).length))) ∧
      Loaded s (s.reg (lowReg rn)) (listRegs list) u := by
  obtain ⟨u, e, loaded⟩ := loadRegs_of_allowed (listRegs_nodup list) h
  refine ⟨u, ?_, loaded⟩
  rw [exec_cLdmia, execCLdmia, readLow, e, listBytes]

/-- POP loads the listed registers, and what is left is the program-counter word or the write of the stack pointer. -/
theorem exec_cPop_of_allowed (h : WordsAllowed s (s.reg spReg) (listRegs list).length) :
    ∃ u, Loaded s (s.reg spReg) (listRegs list) u ∧
      exec (.cPop false list) s =
        .next (u.setReg spReg (s.reg spReg + BitVec.ofNat 32 (4 * (listRegs list).length))) ∧
      exec (.cPop true list) s = popPc (s.reg spReg + BitVec.ofNat 32 (4 * (listRegs list).length)) u := by
  obtain ⟨u, e, loaded⟩ := loadRegs_of_allowed (listRegs_nodup list) h
  refine ⟨u, loaded, ?_, ?_⟩ <;> rw [exec_cPop, execCPop, e] <;> rfl

theorem popPc_odd (loaded : Loaded s base (listRegs list) u) (ha : accessFault s last .word = none)
    (hb : bit (memValue s.mem last.toNat .word) 0 = true) :
    popPc last u =
      .next ((u.setPc (memValue s.mem last.toNat .word &&& 0xFFFFFFFE#32)).setReg spReg (last + 4#32)) := by
  rw [← loaded.mem_eq] at hb ⊢
  exact popPc_next.mpr ⟨(loaded.accessFault_eq ..).trans ha, .inl ⟨hb, rfl⟩⟩

theorem popPc_even (loaded : Loaded s base (listRegs list) u) (ha : accessFault s last .word = none)
    (hb : bit (memValue s.mem last.toNat .word) 0 = false) (hd : s.params.bidirSwitch = true) :
    popPc last u =
      .next (((u.setPc (memValue s.mem last.toNat .word)).setReg spReg (last + 4#32)).setMode .wide) := by
  rw [← loaded.mem_eq] at hb ⊢
  rw [← loaded.params_eq] at hd
  exact popPc_next.mpr ⟨(loaded.accessFault_eq ..).trans ha, .inr ⟨hb, hd, rfl⟩⟩

theorem popPc_faultsWith (loaded : Loaded s base (listRegs list) u) (ha : accessFault s last .word = none)
    (hb : bit (memValue s.mem last.toNat .word) 0 = false) (hd : s.params.bidirSwitch = false) :
    faultsWith (.modeSwitchUnsupported s.iaddr s.instr (memValue s.mem last.toNat .word)) u (popPc last u) := by
  have read : memRead u last .word = .ok (memValue s.mem last.toNat .word) :=
    memRead_ok.mpr ⟨(loaded.accessFault_eq ..).trans ha, by rw [loaded.mem_eq]⟩
  rw [← loaded.params_eq] at hd
  simpa [popPc, read, hb, hd, loaded.iaddr_eq, loaded.instr_eq] using raise_faultsWith _ u

end

/-- Settles O54: a transfer that runs to its end, then the write of the base, or the outcome of the program-counter
word. The switched state is the model's choice (log entry 10). -/
theorem multipleLoads : Obligations.MultipleLoads := by
  intro list s
  refine ⟨fun rn h => ?ldmia, fun h => ?pop⟩
  case ldmia =>
    obtain ⟨u, e, loaded⟩ := exec_cLdmia_of_allowed h
    refine ⟨_, e, State.reg_setReg_self .., fun j hj hne => ?_, fun q hq hne => ?_, loaded.status_eq, loaded.mem_eq,
      loaded.mode_eq⟩
    · rw [State.reg_setReg_ne _ _ hne, loaded.word j hj]
    · rw [State.reg_setReg_ne _ _ hne, loaded.kept q hq]
  case pop =>
    obtain ⟨u, loaded, withoutPc, withPc⟩ := exec_cPop_of_allowed h
    refine ⟨u, loaded.word, loaded.kept, loaded.only_regs, withoutPc, ?_⟩
    rintro _ _ rfl ha rfl
    rw [withPc]
    exact ⟨popPc_odd loaded ha, popPc_even loaded ha, popPc_faultsWith loaded ha⟩

/-! ## POP after PUSH (46_compact_load_store.md R367) -/

theorem pushStart_add_listBytes (s : State) (lr : Bool) (list : BitVec 8) :
    pushStart s lr list + listBytes (pushRegs lr list) = s.reg spReg :=
  BitVec.sub_add_cancel ..

/-- What was stored from a list of registers and is loaded to the same list gives each its value back. -/
theorem Loaded.reg_of_stored {s u v : State} {base : Word} {regs : List Reg} {m : Memory}
    (stored : Stored s base regs m) (loaded : Loaded u base regs v) (hm : u.mem = m) {r : Reg} (hr : r ∈ regs) :
    v.reg r = s.reg r := by
  obtain ⟨j, hj, rfl⟩ := List.getElem_of_mem hr
  rw [loaded.word j hj, hm, stored.word j hj]

/-- Settles O55: POP reads the words PUSH stored, from the stack pointer PUSH left, and its checks look at the segment
table and the constants only. -/
theorem pushPopRoundTrip : Obligations.PushPopRoundTrip := by
  intro list s t u push hmem hsp hsegs hparams
  obtain ⟨allowed, m, rfl, stored⟩ := exec_cPush_next push
  rw [State.reg_setReg_self] at hsp
  rw [pushRegs_false, ← hsp] at allowed stored
  obtain ⟨v, loaded, pop, -⟩ := exec_cPop_of_allowed (allowed.congr hsegs hparams)
  refine ⟨_, pop, fun r hr => ?listed, ?stackPointer, fun q hq hne => ?others⟩
  case listed =>
    have hne : r ≠ spReg := fun e => spReg_not_mem_listRegs list (e ▸ hr)
    rw [State.reg_setReg_ne _ _ hne, loaded.reg_of_stored stored hmem hr]
  case stackPointer =>
    rw [State.reg_setReg_self, hsp, ← pushStart_add_listBytes s false list, listBytes, pushRegs_false]
  case others => rw [State.reg_setReg_ne _ _ hne, loaded.kept q hq]

end Sys2Proof.Machine

/-! The compact extensions and reversals, the compact branches, the branch-with-link pair, and the rows that stop. -/

namespace Sys2Proof.Machine

/-! ## The rows that stop (47_compact_misc_branch.md R389 to R392, R396, R400, R402) -/

theorem unimplemented_faultsWith (s : State) :
    faultsWith (.unimplementedInstruction s.iaddr s.instr) s (unimplemented s) := raise_faultsWith _ s

theorem undefined_faultsWith (s : State) :
    faultsWith (.undefinedInstruction s.iaddr s.instr) s (undefined s) := raise_faultsWith _ s

/-- Settles O31: five rows are `unimplemented` and two are `undefined`, whatever their fields. -/
theorem compactStops : Obligations.CompactStops := by
  intro s
  have lacking := unimplemented_faultsWith s
  have meaningless := undefined_faultsWith s
  exact ⟨fun _ => lacking, fun _ => lacking, fun _ _ _ _ => lacking, fun _ => lacking, fun _ => lacking,
    fun _ _ => meaningless, fun _ => meaningless⟩

/-! ## Extension (40_cond_shifter_alu.md R156, 47_compact_misc_branch.md R382 to R385) -/

theorem field_zero_eq_setWidth {n k : Nat} (v : BitVec n) (hk : k ≤ n) : field v 0 k = v.setWidth k :=
  (BitVec.setWidth_eq_extractLsb' hk).symm

/-- A field extended with its sign keeps its signed value. -/
theorem toInt_signExtend_field (v : Word) {k : Nat} (hk : k ≤ 32) :
    ((field v 0 k).signExtend 32).toInt = (v.setWidth k).toInt := by
  rw [BitVec.toInt_signExtend_of_le hk, field_zero_eq_setWidth v hk]

/-- A field extended with zeros keeps its unsigned value. -/
theorem toNat_setWidth_field (v : Word) {k : Nat} (hk : k ≤ 32) :
    ((field v 0 k).setWidth 32).toNat = v.toNat % 2 ^ k := by
  rw [BitVec.toNat_setWidth_of_le hk, field_zero_eq_setWidth v hk, BitVec.toNat_setWidth]

/-! ## Reversal (47_compact_misc_branch.md R386 to R388) -/

/-- A field above the lower part of a concatenation is a field of its upper part. -/
theorem field_append_above {n m : Nat} (x : BitVec n) (y : BitVec m) {a k : Nat} (h : a + k ≤ n) :
    field (x ++ y) (m + a) k = field x a k := by
  rw [← field_field (x ++ y) h, field_append_upper]

/-- The bytes of a word made of four bytes are those bytes. -/
theorem byteOfWord_wordOfBytes (b : Nat → Byte) {j : Nat} (hj : j < 4) :
    byteOfWord (wordOfBytes (b 0) (b 1) (b 2) (b 3)) j = b j := by
  have above {n : Nat} (x : BitVec n) (y : Byte) {a : Nat} (h : a + 8 ≤ n) := field_append_above x y h
  match j, hj with
  | 0, _ => exact field_append_lower ..
  | 1, _ =>
    calc field (b 3 ++ b 2 ++ b 1 ++ b 0) (8 + 0) 8
      _ = field (b 3 ++ b 2 ++ b 1) 0 8 := above _ _ (by decide)
      _ = b 1 := field_append_lower ..
  | 2, _ =>
    calc field (b 3 ++ b 2 ++ b 1 ++ b 0) (8 + (8 + 0)) 8
      _ = field (b 3 ++ b 2 ++ b 1) (8 + 0) 8 := above _ _ (by decide)
      _ = field (b 3 ++ b 2) 0 8 := above _ _ (by decide)
      _ = b 2 := field_append_lower ..
  | 3, _ =>
    calc field (b 3 ++ b 2 ++ b 1 ++ b 0) (8 + (8 + 8)) 8
      _ = field (b 3 ++ b 2 ++ b 1) (8 + 8) 8 := above _ _ (by decide)
      _ = field (b 3 ++ b 2) 8 8 := above _ _ (by decide)
      _ = b 3 := field_append_upper ..

theorem reverseWord_eq_wordOfBytes (v : Word) :
    reverseWord v = wordOfBytes (byteOfWord v 3) (byteOfWord v 2) (byteOfWord v 1) (byteOfWord v 0) := rfl

theorem reverseHalves_eq_wordOfBytes (v : Word) :
    reverseHalves v = wordOfBytes (byteOfWord v 1) (byteOfWord v 0) (byteOfWord v 3) (byteOfWord v 2) := rfl

theorem byteOfWord_reverseWord (v : Word) {j : Nat} (hj : j < 4) :
    byteOfWord (reverseWord v) j = byteOfWord v (3 - j) := by
  rw [reverseWord_eq_wordOfBytes]
  exact byteOfWord_wordOfBytes (fun j => byteOfWord v (3 - j)) hj

theorem byteOfWord_reverseHalves (v : Word) {j : Nat} (hj : j < 4) :
    byteOfWord (reverseHalves v) j = byteOfWord v (if j % 2 = 0 then j + 1 else j - 1) := by
  rw [reverseHalves_eq_wordOfBytes]
  exact byteOfWord_wordOfBytes (fun j => byteOfWord v (if j % 2 = 0 then j + 1 else j - 1)) hj

theorem toInt_reverseSigned (v : Word) : (reverseSigned v).toInt = (byteOfWord v 0 ++ byteOfWord v 1).toInt :=
  BitVec.toInt_signExtend_of_le (by decide)

/-- Settles O52: each form is one register write, of a value with its own lemma above. -/
theorem compactExtendReverse : Obligations.CompactExtendReverse := by
  intro rm rd s
  exact
    ⟨⟨_, rfl, toInt_signExtend_field _ (by decide)⟩, ⟨_, rfl, toInt_signExtend_field _ (by decide)⟩,
      ⟨_, rfl, toNat_setWidth_field _ (by decide)⟩, ⟨_, rfl, toNat_setWidth_field _ (by decide)⟩,
      ⟨_, rfl, fun _ => byteOfWord_reverseWord _⟩, ⟨_, rfl, fun _ => byteOfWord_reverseHalves _⟩,
      ⟨_, rfl, toInt_reverseSigned _⟩⟩

/-! ## Branches (47_compact_misc_branch.md R395, R397) -/

/-- A scaled signed offset added to the program counter as compact code reads it. -/
theorem add_four_add_signExtend_eq_ofInt {n : Nat} (a : Word) (imm : BitVec n) (k : Nat) :
    a + 4#32 + imm.signExtend 32 <<< k = BitVec.ofInt 32 (a.toInt + 4 + (2 ^ k : Nat) * imm.toInt) := by
  rw [signExtend_shiftLeft_eq_ofInt, BitVec.ofInt_add, BitVec.ofInt_add, BitVec.ofInt_toInt]
  rfl

theorem compactBranchTarget_eq_ofInt {n : Nat} (s : State) (imm : BitVec n) :
    compactBranchTarget s (branchOffset2 imm) = BitVec.ofInt 32 (s.iaddr.toInt + 4 + 2 * imm.toInt) :=
  add_four_add_signExtend_eq_ofInt s.iaddr imm 1

section
variable {c : Cond} {s : State}

theorem exec_cBcond_taken {imm8 : BitVec 8} (hc : condPassed c s = true) :
    exec (.cBcond c imm8) s = .next (s.setPc (compactBranchTarget s (branchOffset2 imm8))) := whenPassed_true hc

theorem exec_cBcond_not_taken {imm8 : BitVec 8} (hc : condPassed c s = false) :
    exec (.cBcond c imm8) s = .next s := whenPassed_false hc

theorem exec_cB (imm11 : BitVec 11) (s : State) :
    exec (.cB imm11) s = .next (s.setPc (compactBranchTarget s (branchOffset2 imm11))) := rfl

end

/-- Settles O57: both branches go to the same target, B<cond> once its condition passes. -/
theorem compactBranches : Obligations.CompactBranches := by
  intro s
  refine ⟨fun c imm8 hc => ?taken, fun c imm8 hc => exec_cBcond_not_taken hc, fun imm11 => ?always⟩
  case taken => rw [exec_cBcond_taken hc, compactBranchTarget_eq_ofInt]
  case always => rw [exec_cB, compactBranchTarget_eq_ofInt]

/-! ## The branch-with-link pair (47_compact_misc_branch.md R398, R399) -/

theorem pcRead_add_linkHigh_eq_ofInt (s : State) (imm11 : BitVec 11) :
    readCompact s pcReg + linkHigh imm11 = BitVec.ofInt 32 (s.iaddr.toInt + 4 + 4096 * imm11.toInt) := by
  rw [readCompact_pcReg]
  exact add_four_add_signExtend_eq_ofInt s.iaddr imm11 12

theorem add_scaled2_eq_ofNat {n : Nat} (a : Word) (imm : BitVec n) :
    a + scaled2 imm = BitVec.ofNat 32 (a.toNat + 2 * imm.toNat) := by
  rw [BitVec.ofNat_add, BitVec.ofNat_toNat, BitVec.setWidth_eq, scaled2_eq_ofNat]

theorem ofInt_add_scaled2 {n : Nat} (x : Int) (imm : BitVec n) :
    BitVec.ofInt 32 x + scaled2 imm = BitVec.ofInt 32 (x + 2 * imm.toNat) := by
  have offset : BitVec.ofInt 32 (2 * (imm.toNat : Int)) = scaled2 imm :=
    (BitVec.ofInt_natCast 32 (2 * imm.toNat)).trans (scaled2_eq_ofNat imm).symm
  rw [BitVec.ofInt_add, offset]

theorem exec_cBlPrefix (high : BitVec 11) (s : State) :
    exec (.cBlPrefix high) s = .next (s.setReg lrReg (BitVec.ofInt 32 (s.iaddr.toInt + 4 + 4096 * high.toInt))) := by
  rw [← pcRead_add_linkHigh_eq_ofInt]
  rfl

theorem exec_cBlSuffix (low : BitVec 11) (t : State) :
    exec (.cBlSuffix low) t =
      .next ((t.setReg lrReg ((t.iaddr + 2#32) ||| 1#32)).setPc (t.reg lrReg + scaled2 low)) := rfl

/-- Settles O58: the second half is added to the link register the first one wrote, so the pair adds both. -/
theorem branchWithLinkPair : Obligations.BranchWithLinkPair := by
  intro s t high low
  refine ⟨exec_cBlPrefix high s, ?suffix, fun u v hu hlr hv => ?pair⟩
  case suffix => rw [exec_cBlSuffix, add_scaled2_eq_ofNat]
  case pair =>
    rw [exec_cBlPrefix] at hu
    cases hu
    rw [exec_cBlSuffix] at hv
    cases hv
    rw [State.pc_setPc, hlr, State.reg_setReg_self, ofInt_add_scaled2]

end Sys2Proof.Machine

/-! Block transfers: each completes, or stops at the first word whose access fails (60_exceptions.md R445). -/

namespace Sys2Proof.Machine

theorem raise_isFault (k : FaultKind) (s : State) : ∃ f, raise k s = .fault f :=
  have ⟨f, e, _⟩ := raise_faultsWith k s
  ⟨f, e⟩

/-- Of the consecutive words from an address, the one of index `k` is the first whose access fails its checks. -/
structure FirstFailure (s : State) (base : Word) (k : Nat) (kind : FaultKind) : Prop where
  allowed : WordsAllowed s base k
  fails : accessFault s (base + BitVec.ofNat 32 (4 * k)) .word = some kind

/-! ## PUSH and STMIA (46_compact_load_store.md R365, R369) -/

/-- What a store of several registers answers. -/
inductive StoreOutcome (s : State) (base : Word) (regs : List Reg) (o : Out) : Prop where
  | completes {t : State} (allowed : WordsAllowed s base regs.length) (answer : o = .next t)
  | stops {k : Nat} {kind : FaultKind} {m : Memory} (before : k < regs.length) (failure : FirstFailure s base k kind)
      (word : ∀ (j : Nat) (h : j < k), memValue m (base + BitVec.ofNat 32 (4 * j)).toNat .word = s.reg regs[j])
      (kept : ∀ a, outside (wordsFrom base k) a → memGet m a = memGet s.mem a)
      (answer : o = raise kind (s.setMem m))

section
variable {s : State} {list : BitVec 8}

theorem storeOutcome_of_storeRegs {base : Word} {regs : List Reg} {o : Out} (hn : regs.length < 2 ^ 20)
    (hdone : ∀ b u, storeRegs regs base s = .done b u → ∃ t, o = .next t)
    (hstopped : ∀ k u, storeRegs regs base s = .stopped k u → o = raise k u) : StoreOutcome s base regs o := by
  obtain ⟨k, m, _, allowed, word, kept, ⟨rfl, b, e⟩ | ⟨hk, kind, fails, e⟩⟩ := storeRegs_spec regs hn base s
  · obtain ⟨t, answer⟩ := hdone b _ e
    exact .completes allowed answer
  · exact .stops hk ⟨allowed, fails⟩ word kept (hstopped kind _ e)

theorem exec_cPush_outcome (lr : Bool) :
    StoreOutcome s (pushStart s lr list) (pushRegs lr list) (exec (.cPush lr list) s) := by
  refine storeOutcome_of_storeRegs (pushRegs_length_lt lr list)
    (fun b u e => ⟨u.setReg spReg (pushStart s lr list), ?_⟩) fun k u e => ?_ <;>
    rw [exec_cPush, execCPush, e]

theorem exec_cStmia_outcome (rn : LowReg) :
    StoreOutcome s (s.reg (lowReg rn)) (listRegs list) (exec (.cStmia rn list) s) := by
  refine storeOutcome_of_storeRegs (listRegs_length_lt list)
    (fun b u e => ⟨u.setReg (lowReg rn) (readLow s rn + listBytes (listRegs list)), ?_⟩) fun k u e => ?_ <;>
    rw [exec_cStmia, execCStmia, readLow, e]

end

/-! ## LDMIA and POP (46_compact_load_store.md R366, R368) -/

/-- What a load of several registers, and of a program-counter word after them, answers. -/
inductive LoadOutcome (s : State) (base : Word) (regs : List Reg) (pcWord : Bool) (o : Out) : Prop where
  | completes {t : State} (allowed : WordsAllowed s base (regs.length + pcWord.toNat)) (answer : o = .next t)
  | stops {k : Nat} {kind : FaultKind} {u : State} (before : k < regs.length + pcWord.toNat)
      (failure : FirstFailure s base k kind) (loaded : Loaded s base (regs.take k) u) (answer : o = raise kind u)
  | unsupported {v : Word} {u : State} (hpc : pcWord = true) (baseline : s.params.bidirSwitch = false)
      (allowed : WordsAllowed s base (regs.length + 1))
      (value : v = memValue s.mem (base + BitVec.ofNat 32 (4 * regs.length)).toNat .word) (even : bit v 0 = false)
      (answer : faultsWith (.modeSwitchUnsupported s.iaddr s.instr v) u o)

section
variable {s u : State} {base : Word} {list : BitVec 8}

theorem WordsAllowed.succ {n : Nat} (h : WordsAllowed s base n)
    (hlast : accessFault s (base + BitVec.ofNat 32 (4 * n)) .word = none) : WordsAllowed s base (n + 1) := by
  intro j hj
  rcases Nat.lt_succ_iff_lt_or_eq.mp hj with hj | rfl
  · exact h j hj
  · exact hlast

/-- A load of registers loads them all, or stops at the first word whose access fails. -/
theorem loadRegs_done_or_stopped {regs : List Reg} (hn : regs.Nodup) (base : Word) (s : State) :
    (∃ u, loadRegs regs base s = .done (base + BitVec.ofNat 32 (4 * regs.length)) u ∧
      WordsAllowed s base regs.length ∧ Loaded s base regs u) ∨
    ∃ k kind u, loadRegs regs base s = .stopped kind u ∧ k < regs.length ∧ FirstFailure s base k kind ∧
      Loaded s base (regs.take k) u := by
  rcases loadRegs_spec regs hn base s with ⟨u, e, allowed, word, kept, only⟩ |
    ⟨k, kind, u, hk, e, allowed, fails, word, kept, only⟩
  · exact .inl ⟨u, e, allowed, word, kept, only⟩
  · refine .inr ⟨k, kind, u, e, hk, ⟨allowed, fails⟩, fun j hj => ?_, kept, only⟩
    rw [List.length_take] at hj
    rw [List.getElem_take]
    exact word j (by omega)

theorem loadRegs_done {regs : List Reg} {addr : Word} (hn : regs.Nodup) (h : loadRegs regs base s = .done addr u) :
    Loaded s base regs u := by
  rcases loadRegs_done_or_stopped hn base s with ⟨v, e, -, loaded⟩ | ⟨_, _, v, e, -⟩ <;> rw [h] at e <;> cases e
  exact loaded

/-- The program-counter word: its access fails, it completes the POP, or it asks for a switch the design lacks. -/
theorem popPc_outcome (allowed : WordsAllowed s base (listRegs list).length)
    (loaded : Loaded s base (listRegs list) u) :
    LoadOutcome s base (listRegs list) true (popPc (base + BitVec.ofNat 32 (4 * (listRegs list).length)) u) := by
  cases ha : accessFault s (base + BitVec.ofNat 32 (4 * (listRegs list).length)) .word with
  | some kind =>
    have read : memRead u (base + BitVec.ofNat 32 (4 * (listRegs list).length)) .word = .error kind :=
      memRead_error.mpr ((loaded.accessFault_eq ..).trans ha)
    exact .stops (Nat.lt_succ_self _) ⟨allowed, ha⟩ (by rwa [List.take_length]) (by rw [popPc, read])
  | none =>
    have all := allowed.succ ha
    cases hb : bit (memValue s.mem (base + BitVec.ofNat 32 (4 * (listRegs list).length)).toNat .word) 0 with
    | true => exact .completes all (popPc_odd loaded ha hb)
    | false =>
      cases hd : s.params.bidirSwitch with
      | true => exact .completes all (popPc_even loaded ha hb hd)
      | false => exact .unsupported rfl hd all rfl hb (popPc_faultsWith loaded ha hb hd)

theorem exec_cPop_outcome (pcWord : Bool) :
    LoadOutcome s (s.reg spReg) (listRegs list) pcWord (exec (.cPop pcWord list) s) := by
  rcases loadRegs_done_or_stopped (listRegs_nodup list) (s.reg spReg) s with
    ⟨u, e, allowed, loaded⟩ | ⟨k, kind, u, e, hk, failure, loaded⟩ <;> rw [exec_cPop, execCPop, e]
  · cases pcWord with
    | false => exact .completes allowed rfl
    | true => exact popPc_outcome allowed loaded
  · exact .stops (Nat.lt_add_right _ hk) failure loaded rfl

theorem exec_cLdmia_outcome (rn : LowReg) :
    LoadOutcome s (s.reg (lowReg rn)) (listRegs list) false (exec (.cLdmia rn list) s) := by
  rcases loadRegs_done_or_stopped (listRegs_nodup list) (s.reg (lowReg rn)) s with
    ⟨u, e, allowed, -⟩ | ⟨k, kind, u, e, hk, failure, loaded⟩ <;> rw [exec_cLdmia, execCLdmia, readLow, e]
  · exact .completes allowed rfl
  · exact .stops hk failure loaded rfl

end

/-- Settles O56, by the outcomes of a store and of a load of several words. -/
theorem partialTransfers : Obligations.PartialTransfers := by
  intro s
  refine ⟨fun i base regs hi => ?stores, fun i base list pcWord hi => ?loads⟩
  case stores =>
    have outcome : StoreOutcome s base regs (exec i s) := by
      rcases hi with ⟨lr, list, rfl, rfl, rfl⟩ | ⟨rn, list, rfl, rfl, rfl⟩
      · exact exec_cPush_outcome lr
      · exact exec_cStmia_outcome rn
    cases outcome with
    | completes allowed answer =>
      rw [answer]
      exact ⟨fun ⟨j, hj, hf⟩ => absurd (allowed j hj) hf, nofun⟩
    | stops before failure word kept answer =>
      rw [answer]
      refine ⟨fun _ => raise_isFault .., fun f hf => ?_⟩
      obtain ⟨hkind, hfinal⟩ := raise_eq_fault hf
      rw [hfinal]
      exact ⟨_, before, _, failure.allowed, failure.fails, hkind, word, kept, rfl⟩
  case loads =>
    have outcome : LoadOutcome s base (listRegs list) pcWord (exec i s) := by
      rcases hi with ⟨rfl, rfl⟩ | ⟨rn, rfl, rfl, rfl⟩
      · exact exec_cPop_outcome pcWord
      · exact exec_cLdmia_outcome rn
    cases outcome with
    | completes allowed answer =>
      rw [answer]
      exact ⟨fun ⟨j, hj, hf⟩ => absurd (allowed j hj) hf, nofun⟩
    | @stops k kind u before failure loaded answer =>
      rw [answer]
      refine ⟨fun _ => raise_isFault .., fun f hf => .inl ?_⟩
      obtain ⟨hkind, hfinal⟩ := raise_eq_fault hf
      have hk : k ≤ (listRegs list).length := Nat.le_of_lt_succ (before.trans_le (by cases pcWord <;> simp))
      rw [hfinal]
      refine ⟨k, hk, kind, ?_, failure.allowed, failure.fails, hkind, fun j hj => ?_, loaded.kept,
        congrArg (State.setRun · _) loaded.only_regs⟩
      · rintro rfl
        cases pcWord with
        | true => rfl
        | false => exact absurd before (Nat.lt_irrefl _)
      · have word := loaded.word j (by rw [List.length_take]; omega)
        rwa [List.getElem_take] at word
    | unsupported hpc baseline allowed value even answer =>
      obtain ⟨f, e, hkind, -⟩ := answer
      rw [e]
      refine ⟨fun _ => ⟨f, rfl⟩, fun g hg => .inr ?_⟩
      cases hg
      exact ⟨hpc, baseline, allowed, _, value, even, hkind⟩

end Sys2Proof.Machine

/-! The mode switch: which instructions change the mode, and that a run of the baseline stays in wide mode. -/

namespace Sys2Proof.Machine

/-! ## The instructions that change the mode (48_mode_switch.md R422) -/

section
variable {i : Instr} {s t u : State}

theorem Writes.mode_kept_or_target (h : Writes i s t) : t.mode = s.mode ∨ switchTarget i = some t.mode := by
  induction h with
  | start => exact .inl rfl
  | mode _ hm _ => exact .inr hm
  | reg _ _ _ ih | flags _ _ ih | mem _ _ ih | shim _ _ _ _ ih | run _ _ _ ih => exact ih

theorem switchTarget_of_mode_ne (h : exec i s = .next t) (hm : t.mode ≠ s.mode) : switchTarget i = some t.mode :=
  (exec_writes h).mode_kept_or_target.resolve_left hm

theorem eq_exchange_of_switchTarget_compact (h : switchTarget i = some .compact) :
    ∃ c rm, i = .bx c rm ∨ i = .blxReg c rm := by
  unfold switchTarget at h
  split at h
  case h_1 c rm => exact ⟨c, rm, .inl rfl⟩
  case h_2 c rm => exact ⟨c, rm, .inr rfl⟩
  case h_5 pc _ => cases pc <;> cases h
  all_goals cases h

/-! ## The switches that need BIDIR_SWITCH (48_mode_switch.md R423) -/

theorem bidirSwitch_of_exchangeFromWide {target : Word} {linked : State}
    (h : exchangeFromWide target linked s = .next t) (hl : linked.mode = s.mode) (hm : t.mode ≠ s.mode) :
    s.params.bidirSwitch = true := by
  rcases exchangeFromWide_next.mp h with ⟨-, rfl⟩ | ⟨-, hb, -⟩
  · exact absurd hl hm
  · exact hb

theorem bidirSwitch_of_popPc {addr : Word} (h : popPc addr u = .next t) (hm : t.mode ≠ u.mode) :
    u.params.bidirSwitch = true := by
  obtain ⟨-, ⟨-, rfl⟩ | ⟨-, hb, -⟩⟩ := popPc_next.mp h
  · exact absurd rfl hm
  · exact hb

theorem bidirSwitch_of_pop {pc : Bool} {list : BitVec 8} (h : exec (.cPop pc list) s = .next t)
    (hm : t.mode ≠ s.mode) : s.params.bidirSwitch = true := by
  rw [exec_cPop, execCPop] at h
  split at h
  · exact absurd h (raise_ne_next _ _ _)
  · rename_i e
    have loaded := loadRegs_done (listRegs_nodup list) e
    rw [← loaded.mode_eq] at hm
    rw [← loaded.params_eq]
    cases pc with
    | false =>
      cases h
      exact absurd rfl hm
    | true => exact bidirSwitch_of_popPc h hm

/-- A switch to compact mode, and the switch of POP, happen only in a bidirectional design. -/
theorem bidirSwitch_of_switch (h : exec i s = .next t) (hm : t.mode ≠ s.mode)
    (hi : t.mode = .compact ∨ ∃ pc list, i = .cPop pc list) : s.params.bidirSwitch = true := by
  rcases hi with hc | ⟨pc, list, rfl⟩
  · have target := switchTarget_of_mode_ne h hm
    rw [hc] at target
    obtain ⟨c, rm, rfl | rfl⟩ := eq_exchange_of_switchTarget_compact target
    · rcases whenPassed_next.mp h with ⟨-, h⟩ | ⟨-, rfl⟩
      · exact bidirSwitch_of_exchangeFromWide h rfl hm
      · exact absurd rfl hm
    · rcases whenPassed_next.mp h with ⟨-, h⟩ | ⟨-, rfl⟩
      · obtain ⟨-, h⟩ := unlessRefused_next.mp h
        exact bidirSwitch_of_exchangeFromWide h rfl hm
      · exact absurd rfl hm
  · exact bidirSwitch_of_pop h hm

/-! ## Runs of the baseline -/

theorem wide_of_stepsTo (h : StepsTo s t) (hm : s.mode = .wide) (hb : s.params.bidirSwitch = false) :
    t.mode = .wide := by
  obtain ⟨-, w, -, ⟨i, -, he⟩ | ⟨_, -, rfl⟩⟩ := step_next h
  · cases ht : t.mode with
    | wide => rfl
    | compact =>
      have changed : t.mode ≠ (advance s w).mode := by
        rw [ht, show (advance s w).mode = .wide from hm]
        exact nofun
      have bidir : (advance s w).params.bidirSwitch = true := bidirSwitch_of_switch he changed (.inl ht)
      exact nomatch hb.symm.trans bidir
  · exact hm

end

/-- Settles O34, by induction on the run: no step switches to compact mode in the baseline, and no step changes the
design. -/
theorem baselineStaysWide : Obligations.BaselineStaysWide := by
  intro s t hm hb h
  induction h with
  | start => exact hm
  | more reached hstep ih =>
    obtain ⟨-, -, hparams⟩ := runKeepsConfiguration s _ reached
    exact wide_of_stepsTo hstep ih (by rw [hparams, hb])

end Sys2Proof.Machine

/-! Which instructions are refused, and which raise ModeSwitchUnsupported (60_exceptions.md R463, 48_mode_switch.md
R422). -/

namespace Sys2Proof.Machine

/-! ## Outcomes of an instruction that is not refused -/

/-- The instructions that ask for a switch some designs lack. -/
def MayLackSwitch (i : Instr) : Prop := (∃ c rm, i = .bx c rm ∨ i = .blxReg c rm) ∨ ∃ list, i = .cPop true list

/-- The instruction, begun in `s`, is carried out: it is not refused, and it raises ModeSwitchUnsupported only if it
asks for a switch the design lacks. -/
def Performs (i : Instr) (s : State) : Out → Prop
  | .next _ => True
  | .fault (.modeSwitchUnsupported a w _ _) =>
    MayLackSwitch i ∧ s.params.bidirSwitch = false ∧ a = s.iaddr ∧ w = s.instr
  | .fault _ => True
  | .refused _ => False

section
variable {i : Instr} {s t : State}

theorem Performs.ne_refused {o : Out} (h : Performs i s o) (r : Refusal) : o ≠ .refused r := by
  rintro rfl
  exact h

theorem next_performs : Performs i s (.next t) := trivial

theorem unimplemented_performs : Performs i s (unimplemented t) := trivial

theorem undefined_performs : Performs i s (undefined t) := trivial

theorem accessFault_raise_performs {u : State} {a : Word} {w : Width} {k : FaultKind}
    (h : accessFault u a w = some k) : Performs i s (raise k t) := by
  rcases accessFault_kind h with rfl | rfl <;> trivial

theorem dpWrite_performs {sf : Bool} {rd : Reg} {r : AluOut} : Performs i s (dpWrite sf rd r s) := by
  unfold dpWrite
  split
  · cases sf with
    | true => exact unimplemented_performs
    | false => exact next_performs
  · exact next_performs

theorem dpCompare_performs {rd : Reg} {r : AluOut} : Performs i s (dpCompare rd r s) := by
  unfold dpCompare
  split
  · exact unimplemented_performs
  · exact next_performs

theorem exchangeFromWide_performs {target : Word} {linked : State} (hi : MayLackSwitch i) :
    Performs i s (exchangeFromWide target linked s) := by
  unfold exchangeFromWide
  split
  · split
    · exact next_performs
    · rename_i hb
      exact ⟨hi, Bool.eq_false_iff.mpr hb, rfl, rfl⟩
  · exact next_performs

theorem highWrite_performs {rd : Reg} {v : Word} : Performs i s (highWrite rd v s) := by
  unfold highWrite
  split <;> exact next_performs

theorem lsLoad_performs {width : Width} {extend : Word → Word} {p u w : Bool} {rn rd : Reg} {offset : Word} :
    Performs i s (lsLoad width extend p u w rn rd offset s) := by
  unfold lsLoad
  split
  · rename_i e
    exact accessFault_raise_performs (memRead_error.mp e)
  · exact next_performs

theorem lsStore_performs {width : Width} {p u w : Bool} {rn rd : Reg} {offset : Word} :
    Performs i s (lsStore width p u w rn rd offset s) := by
  unfold lsStore
  split
  · rename_i e
    exact accessFault_raise_performs (memWrite_error.mp e)
  · exact next_performs

theorem compactLoad_performs {width : Width} {extend : Word → Word} {rd : LowReg} {addr : Word} :
    Performs i s (compactLoad width extend rd addr s) := by
  unfold compactLoad
  split
  · rename_i e
    exact accessFault_raise_performs (memRead_error.mp e)
  · exact next_performs

theorem compactStore_performs {width : Width} {rd : LowReg} {addr : Word} :
    Performs i s (compactStore width rd addr s) := by
  unfold compactStore
  split
  · rename_i e
    exact accessFault_raise_performs (memWrite_error.mp e)
  · exact next_performs

theorem trap_performs : Performs i s (trap s) := by
  rcases trap_completes_or_faults s with ⟨t, e⟩ | ⟨a, w, k, t, hk, e⟩ <;> rw [e]
  · exact next_performs
  · exact accessFault_raise_performs hk

theorem StoreOutcome.performs {base : Word} {regs : List Reg} {o : Out} (h : StoreOutcome s base regs o) :
    Performs i s o := by
  cases h with
  | completes _ answer =>
    rw [answer]
    exact next_performs
  | stops _ failure _ _ answer =>
    rw [answer]
    exact accessFault_raise_performs failure.fails

theorem LoadOutcome.performs {base : Word} {regs : List Reg} {pcWord : Bool} {o : Out}
    (h : LoadOutcome s base regs pcWord o) (hi : pcWord = true → MayLackSwitch i) : Performs i s o := by
  cases h with
  | completes _ answer =>
    rw [answer]
    exact next_performs
  | stops _ failure _ answer =>
    rw [answer]
    exact accessFault_raise_performs failure.fails
  | unsupported hpc baseline _ _ _ answer =>
    obtain ⟨f, rfl, hkind, -⟩ := answer
    cases f <;> cases hkind
    exact ⟨hi hpc, baseline, rfl, rfl⟩

end

/-! ## When an instruction is refused -/

/-- The outcome is the refusal in `s` where the condition passes and the registers are refused, and otherwise the
instruction is carried out (60_exceptions.md R446). -/
structure RefusedWhen (pass refused : Bool) (i : Instr) (s : State) (o : Out) : Prop where
  refuses : pass = true → refused = true → o = refuse s
  performs : ¬ (pass = true ∧ refused = true) → Performs i s o

section
variable {i : Instr} {s : State} {pass refused : Bool} {o : Out}

theorem Performs.notRefused (h : Performs i s o) : RefusedWhen pass false i s o :=
  ⟨fun _ hr => (nomatch hr), fun _ => h⟩

theorem unlessRefused_refusedWhen {b : Bool} (hb : b = refused) (h : Performs i s o) :
    RefusedWhen true refused i s (unlessRefused b s o) := by
  subst hb
  cases b with
  | true => exact ⟨fun _ _ => rfl, fun hn => absurd ⟨rfl, rfl⟩ hn⟩
  | false => exact h.notRefused

theorem whenPassed_refusedWhen {c : Cond} (h : RefusedWhen true refused i s o) :
    RefusedWhen (condPassed c s) refused i s (whenPassed c s o) := by
  cases hp : condPassed c s with
  | true => rwa [whenPassed_true hp]
  | false =>
    rw [whenPassed_false hp]
    exact ⟨fun hf => (nomatch hf), fun _ => next_performs⟩

theorem whenPassed_notRefused {c : Cond} (h : Performs i s o) :
    RefusedWhen (condPassed c s) false i s (whenPassed c s o) := whenPassed_refusedWhen h.notRefused

theorem whenPassed_unlessRefused_refusedWhen {c : Cond} {b : Bool} (hb : b = refused) (h : Performs i s o) :
    RefusedWhen (condPassed c s) refused i s (whenPassed c s (unlessRefused b s o)) :=
  whenPassed_refusedWhen (unlessRefused_refusedWhen hb h)

end

/-- The cases are grouped by the shared operation that ends the instruction, and by the row of the refusal table. -/
theorem exec_refusedWhen (i : Instr) (s : State) :
    RefusedWhen (conditionPasses i s) (refusedCombination i) i s (exec i s) := by
  cases i with
  | andImm | andReg | eorImm | eorReg | subImm | subReg | rsbImm | rsbReg | addImm | addReg | adcImm | adcReg
  | sbcImm | sbcReg | rscImm | rscReg | orrImm | orrReg | movImm | movReg | bicImm | bicReg | mvnImm | mvnReg =>
    exact whenPassed_notRefused dpWrite_performs
  | andRsr | eorRsr | subRsr | rsbRsr | addRsr | adcRsr | sbcRsr | rscRsr | orrRsr | bicRsr =>
    exact whenPassed_unlessRefused_refusedWhen (rsrRefused_eq ..) dpWrite_performs
  | movRsr | mvnRsr => exact whenPassed_unlessRefused_refusedWhen (rsrMoveRefused_eq ..) dpWrite_performs
  | tstImm | tstReg | teqImm | teqReg | cmpImm | cmpReg | cmnImm | cmnReg =>
    exact whenPassed_notRefused dpCompare_performs
  | tstRsr | teqRsr | cmpRsr | cmnRsr => exact whenPassed_unlessRefused_refusedWhen rfl dpCompare_performs
  | mrs c saved rd =>
    refine whenPassed_unlessRefused_refusedWhen rfl ?_
    cases saved with
    | true => exact unimplemented_performs
    | false => exact next_performs
  | clz | mul => exact whenPassed_unlessRefused_refusedWhen rfl next_performs
  | bx c rm => exact whenPassed_notRefused (exchangeFromWide_performs (.inl ⟨c, rm, .inl rfl⟩))
  | blxReg c rm =>
    exact whenPassed_unlessRefused_refusedWhen rfl (exchangeFromWide_performs (.inl ⟨c, rm, .inr rfl⟩))
  | msrReg | msrImm | bxj | qadd | qsub | qdadd | qdsub | bkpt | smlaXY | smlawSmulw | smlalXY | smulXY | mla | umaal
  | umull | umlal | smull | smlal | swp | swpb | strex | ldrex | ldrdImm | ldrdReg | strdImm | strdReg | ldrshImm
  | media | stm | ldm | copMem | copReg => exact whenPassed_notRefused unimplemented_performs
  | ldrhImm | ldrsbImm | ldrbImm | ldrtImm | ldrbtImm =>
    exact whenPassed_unlessRefused_refusedWhen rfl lsLoad_performs
  | ldrImm => exact whenPassed_unlessRefused_refusedWhen (lsRefused_pcAllowed ..) lsLoad_performs
  | ldrhReg | ldrsbReg | ldrshReg | ldrbReg =>
    exact whenPassed_unlessRefused_refusedWhen (lsRegRefused_eq ..) lsLoad_performs
  | ldrReg => exact whenPassed_unlessRefused_refusedWhen (lsRegRefused_pcAllowed ..) lsLoad_performs
  | ldrtReg | ldrbtReg => exact whenPassed_unlessRefused_refusedWhen (lsRegRefused_translated ..) lsLoad_performs
  | strhImm | strbImm | strtImm | strbtImm =>
    exact whenPassed_unlessRefused_refusedWhen rfl lsStore_performs
  | strImm => exact whenPassed_unlessRefused_refusedWhen (lsRefused_pcAllowed ..) lsStore_performs
  | strhReg | strbReg => exact whenPassed_unlessRefused_refusedWhen (lsRegRefused_eq ..) lsStore_performs
  | strReg => exact whenPassed_unlessRefused_refusedWhen (lsRegRefused_pcAllowed ..) lsStore_performs
  | strtReg | strbtReg => exact whenPassed_unlessRefused_refusedWhen (lsRegRefused_translated ..) lsStore_performs
  | b | bl | swiOther | cBcond => exact whenPassed_notRefused next_performs
  | swiTrap => exact whenPassed_notRefused trap_performs
  | cLslImm | cLsrImm | cAsrImm | cLsl | cLsr | cAsr | cRor | cAddReg | cSubReg | cAddImm3 | cSubImm3 | cAddImm8
  | cSubImm8 | cAdc | cSbc | cNeg | cMovImm8 | cAnd | cEor | cOrr | cMul | cBic | cMvn | cCmpImm8 | cCmp | cCmn
  | cCmpHi | cTst | cAddPc | cAddSp | cAddSpImm | cSubSpImm | cSxth | cSxtb | cUxth | cUxtb | cRev | cRev16 | cRevsh
  | cB | cBlPrefix | cBlSuffix | cBx => exact next_performs.notRefused
  | cAddHi | cMovHi => exact highWrite_performs.notRefused
  | cBlxReg => exact unlessRefused_refusedWhen rfl next_performs
  | cLdrLit | cLdrsbReg | cLdrReg | cLdrhReg | cLdrbReg | cLdrshReg | cLdrImm | cLdrbImm | cLdrhImm | cLdrSp =>
    exact compactLoad_performs.notRefused
  | cStrReg | cStrhReg | cStrbReg | cStrImm | cStrbImm | cStrhImm | cStrSp => exact compactStore_performs.notRefused
  | cPush lr list => exact (exec_cPush_outcome lr).performs.notRefused
  | cPop pc list => exact ((exec_cPop_outcome pc).performs fun hpc => .inr ⟨list, by rw [hpc]⟩).notRefused
  | cStmia rn list => exact (exec_cStmia_outcome rn).performs.notRefused
  | cLdmia rn list => exact ((exec_cLdmia_outcome rn).performs nofun).notRefused
  | cSwiTrap => exact trap_performs.notRefused
  | cSetend | cCps | cBkpt | cSwiOther | cBlxSuffix => exact unimplemented_performs.notRefused
  | cRevUnalloc | cBcond1110 => exact undefined_performs.notRefused

/-- Settles O29: an instruction that is not refused is carried out, and what is carried out is no refusal. -/
theorem refusedExactly : Obligations.RefusedExactly := by
  intro i s r
  have w := exec_refusedWhen i s
  constructor
  · intro h
    have refused : conditionPasses i s = true ∧ refusedCombination i = true :=
      Decidable.byContradiction fun hn => (w.performs hn).ne_refused r h
    obtain ⟨hp, hr⟩ := refused
    refine ⟨hp, hr, ?_⟩
    have e := (w.refuses hp hr).symm.trans h
    cases e
    rfl
  · rintro ⟨hp, hr, rfl⟩
    exact w.refuses hp hr

/-- Settles O32: a mode other than before is the target of the switch, and ModeSwitchUnsupported is raised where the
design lacks it. That the switch shows in the next state is the model's choice (log entry 10). -/
theorem switchRequests : Obligations.SwitchRequests := by
  intro i s
  refine ⟨fun t h hm => ⟨switchTarget_of_mode_ne h hm, bidirSwitch_of_switch h hm⟩, fun a w g t h => ?_⟩
  have hn : ¬ (conditionPasses i s = true ∧ refusedCombination i = true) := by
    rintro ⟨hp, hr⟩
    have e := (exec_refusedWhen i s).refuses hp hr
    rw [h] at e
    cases e
  have performs := (exec_refusedWhen i s).performs hn
  rwa [h] at performs

end Sys2Proof.Machine
